-- ==== Sys2Proof/Word.lean ====
section
/-! DEFINITION. The widths of the core's registers, operands, command words and responses (spec/00_scope.md R10,
spec/30_encoding.md R80, R81). -/

namespace Sys2Proof

/-- `u8`: the index fields of a command word and the byte-wide registers. -/
abbrev Byte := BitVec 8

/-- `u16`: the volume targets and the vibrato depth. -/
abbrev Half := BitVec 16

/-- `u32`: phases, increments, Q16.16 volumes, sample counts, the `DATA` field, a response (R80). -/
abbrev Word := BitVec 32

/-- One command word, 64 bits (R80). -/
abbrev CmdWord := BitVec 64

/-- The cause bits of a rejected command, in the places they have in `ERR` (spec/60_exceptions.md R261). -/
abbrev ErrBits := BitVec 4

end Sys2Proof
end

