-- ==== Sys2Proof/Syntax.lean ====
section
/-! DEFINITION. The 25 commands of the core, one constructor per row of spec/opcode_table.json (spec/30_encoding.md R90).
Operands are the raw fields of the command word in the order the assembler writes them, `v, u, a, d` (R95): a voice index
(R83), a unit index (R84), the small operand `AUX` and the operand `DATA` (R85). Their legal ranges are
`Sys2Proof.WellFormed`. -/

namespace Sys2Proof

/-- A command (R90). `voice`, `unit`, `aux` and `data` are the fields of R81. -/
inductive Instr where
  /-- `NOP`, R243 -/
  | nop
  /-- `RESET`, R244 -/
  | reset
  /-- `PEEK`, R233 -/
  | peek
  /-- `ADVANCE`, R235 -/
  | advance
  /-- `PULL`, R237 -/
  | pull
  /-- `RDSTAT v`, R245 -/
  | rdstat (voice : Byte)
  /-- `RDERR`, R246 -/
  | rderr
  /-- `MASTER d`, R240 -/
  | master (data : Word)
  /-- `OSCWAVE v, u, d`, R126 -/
  | oscwave (voice unit : Byte) (data : Word)
  /-- `OSCDUTY v, u, d`, R127 -/
  | oscduty (voice unit : Byte) (data : Word)
  /-- `LFOINC v, d`, R128 -/
  | lfoinc (voice : Byte) (data : Word)
  /-- `VFREQ v, d`, R129 -/
  | vfreq (voice : Byte) (data : Word)
  /-- `ENVVOL v, u, d`, R162 -/
  | envvol (voice unit : Byte) (data : Word)
  /-- `ENVATK v, u, d`, R163 -/
  | envatk (voice unit : Byte) (data : Word)
  /-- `ENVDEC v, u, d`, R164 -/
  | envdec (voice unit : Byte) (data : Word)
  /-- `ENVSUS v, u, d`, R165 -/
  | envsus (voice unit : Byte) (data : Word)
  /-- `ENVREL v, u, d`, R166 -/
  | envrel (voice unit : Byte) (data : Word)
  /-- `ENVGAIN v, u, d`, R167 -/
  | envgain (voice unit : Byte) (data : Word)
  /-- `ENVRPT v, u, d`, R168 -/
  | envrpt (voice unit : Byte) (data : Word)
  /-- `MODRATIO v, u, a, d`, R188 -/
  | modratio (voice unit aux : Byte) (data : Word)
  /-- `MODAMT v, u, a, d`, R189 -/
  | modamt (voice unit aux : Byte) (data : Word)
  /-- `VBAL v, d`, R212 -/
  | vbal (voice : Byte) (data : Word)
  /-- `VIBDEPTH v, d`, R213 -/
  | vibdepth (voice : Byte) (data : Word)
  /-- `VEN v, d`, R214 -/
  | ven (voice : Byte) (data : Word)
  /-- `NOTEON v, a, d`, R215 -/
  | noteon (voice aux : Byte) (data : Word)
deriving DecidableEq, Repr

end Sys2Proof
end

