-- ==== Sys2Proof/WellFormed.lean ====
section
/-! DEFINITION. Which commands have operands in range (spec/20_memory.md R61, spec/30_encoding.md R83, R84, R86). A
command outside these ranges is still a command of the core: it is rejected whole, with the cause bits of
spec/60_exceptions.md R261. `AUX` and `DATA` have no illegal value (R88, R265). -/

namespace Sys2Proof

/-- A voice operand of a command that writes: 0 to 127, or 255 for every voice (R83, R86). -/
def voiceOk (voice : Byte) : Bool := decide (voice.toNat ≤ 127 ∨ voice.toNat = 255)

/-- The voice operand of `RDSTAT`: 0 to 127, no broadcast (R86). -/
def voiceReadOk (voice : Byte) : Bool := decide (voice.toNat ≤ 127)

/-- An oscillator unit: `C1`, `C2`, `LFO`, `M1.OSC`, `M2.OSC` are 0 to 4 (R84). -/
def oscUnitOk (unit : Byte) : Bool := decide (unit.toNat ≤ 4)

/-- An envelope unit: `AMP`, `E1`, `E2` are 0 to 2 (R84). -/
def envUnitOk (unit : Byte) : Bool := decide (unit.toNat ≤ 2)

/-- A modulator unit: `M1`, `M2` are 1 and 2; 0 is out of range (R84). -/
def modUnitOk (unit : Byte) : Bool := decide (unit.toNat = 1 ∨ unit.toNat = 2)

/-- Every index operand of the command is in its range, so the command is not rejected (R91). -/
def WellFormed : Instr → Bool
  | .nop => true
  | .reset => true
  | .peek => true
  | .advance => true
  | .pull => true
  | .rdstat voice => voiceReadOk voice
  | .rderr => true
  | .master _ => true
  | .oscwave voice unit _ => voiceOk voice && oscUnitOk unit
  | .oscduty voice unit _ => voiceOk voice && oscUnitOk unit
  | .lfoinc voice _ => voiceOk voice
  | .vfreq voice _ => voiceOk voice
  | .envvol voice unit _ => voiceOk voice && envUnitOk unit
  | .envatk voice unit _ => voiceOk voice && envUnitOk unit
  | .envdec voice unit _ => voiceOk voice && envUnitOk unit
  | .envsus voice unit _ => voiceOk voice && envUnitOk unit
  | .envrel voice unit _ => voiceOk voice && envUnitOk unit
  | .envgain voice unit _ => voiceOk voice && envUnitOk unit
  | .envrpt voice unit _ => voiceOk voice && envUnitOk unit
  | .modratio voice unit _ _ => voiceOk voice && modUnitOk unit
  | .modamt voice unit _ _ => voiceOk voice && modUnitOk unit
  | .vbal voice _ => voiceOk voice
  | .vibdepth voice _ => voiceOk voice
  | .ven voice _ => voiceOk voice
  | .noteon voice _ _ => voiceOk voice

end Sys2Proof
end

