-- ==== Sys2Proof/Decode.lean ====
section
/-! DEFINITION. From a command word to a command, and back (spec/30_encoding.md R80 to R92).

`decode` reads every one of the 2^64 words: it names the command, or it says by name why the word is none: the opcode is
not assigned (R92), or a field that the command's format does not use is not zero (R89). The ranges of `VOICE` and `UNIT`
are part of the exceptions each command's own rule lists (R126 ... R245); the meanings check them, with the functions
`voiceErr` ... `modUnitErr` of this file, and `decode` adds those bits to a reserved-field rejection, so that all cause bits
that apply come together (R91; notes/assumptions/8.md). -/

namespace Sys2Proof

/-! ### The cause bits (spec/60_exceptions.md R261) -/

/-- `ERR_OP`: the opcode is not one of the 25. -/
def errOp : ErrBits := 1
/-- `ERR_VOICE`: the voice operand is out of range. -/
def errVoice : ErrBits := 2
/-- `ERR_UNIT`: the unit operand is out of range. -/
def errUnit : ErrBits := 4
/-- `ERR_RSVD`: a field the format does not use is not zero. -/
def errRsvd : ErrBits := 8

/-! ### The range checks of R91 -/

/-- The voice check of R91 for a command that may be broadcast. -/
def voiceErr (voice : Byte) : ErrBits :=
  if voice.toNat ≤ 127 ∨ voice.toNat = 255 then 0 else errVoice

/-- The voice check of R91 for `RDSTAT`, where 255 is out of range. -/
def voiceReadErr (voice : Byte) : ErrBits :=
  if voice.toNat ≤ 127 then 0 else errVoice

/-- The unit check of R91 for the oscillator commands (R84). -/
def oscUnitErr (unit : Byte) : ErrBits := if unit.toNat ≤ 4 then 0 else errUnit

/-- The unit check of R91 for the envelope commands (R84). -/
def envUnitErr (unit : Byte) : ErrBits := if unit.toNat ≤ 2 then 0 else errUnit

/-- The unit check of R91 for the modulator commands (R84). -/
def modUnitErr (unit : Byte) : ErrBits :=
  if unit.toNat = 1 ∨ unit.toNat = 2 then 0 else errUnit

/-- The `ERR_VOICE` and `ERR_UNIT` bits that R91 finds in a command's operands. -/
def operandErr : Instr → ErrBits
  | .nop => 0
  | .reset => 0
  | .peek => 0
  | .advance => 0
  | .pull => 0
  | .rdstat voice => voiceReadErr voice
  | .rderr => 0
  | .master _ => 0
  | .oscwave voice unit _ => voiceErr voice ||| oscUnitErr unit
  | .oscduty voice unit _ => voiceErr voice ||| oscUnitErr unit
  | .lfoinc voice _ => voiceErr voice
  | .vfreq voice _ => voiceErr voice
  | .envvol voice unit _ => voiceErr voice ||| envUnitErr unit
  | .envatk voice unit _ => voiceErr voice ||| envUnitErr unit
  | .envdec voice unit _ => voiceErr voice ||| envUnitErr unit
  | .envsus voice unit _ => voiceErr voice ||| envUnitErr unit
  | .envrel voice unit _ => voiceErr voice ||| envUnitErr unit
  | .envgain voice unit _ => voiceErr voice ||| envUnitErr unit
  | .envrpt voice unit _ => voiceErr voice ||| envUnitErr unit
  | .modratio voice unit _ _ => voiceErr voice ||| modUnitErr unit
  | .modamt voice unit _ _ => voiceErr voice ||| modUnitErr unit
  | .vbal voice _ => voiceErr voice
  | .vibdepth voice _ => voiceErr voice
  | .ven voice _ => voiceErr voice
  | .noteon voice _ _ => voiceErr voice

/-! ### Fields and formats -/

/-- `OP`, bits 63 to 56 (R81). -/
def opField (w : CmdWord) : Byte := w.extractLsb' 56 8
/-- `VOICE`, bits 55 to 48 (R81). -/
def voiceField (w : CmdWord) : Byte := w.extractLsb' 48 8
/-- `UNIT`, bits 47 to 40 (R81). -/
def unitField (w : CmdWord) : Byte := w.extractLsb' 40 8
/-- `AUX`, bits 39 to 32 (R81). -/
def auxField (w : CmdWord) : Byte := w.extractLsb' 32 8
/-- `DATA`, bits 31 to 0 (R81). -/
def dataField (w : CmdWord) : Word := w.extractLsb' 0 32

/-- `w = OP ++ VOICE ++ UNIT ++ AUX ++ DATA` (R81). -/
def packWord (op voice unit aux : Byte) (data : Word) : CmdWord :=
  op ++ (voice ++ (unit ++ (aux ++ data)))

/-- The seven formats (R82). -/
inductive Format where
  /-- `OP` only -/
  | g
  /-- `OP`, `DATA` -/
  | gd
  /-- `OP`, `VOICE` -/
  | v
  /-- `OP`, `VOICE`, `DATA` -/
  | vd
  /-- `OP`, `VOICE`, `UNIT`, `DATA` -/
  | vud
  /-- all five fields -/
  | vuad
  /-- `OP`, `VOICE`, `AUX`, `DATA` -/
  | vad
deriving DecidableEq, Repr

/-- The format of each command (R82). -/
def formatOf : Instr → Format
  | .nop => .g
  | .reset => .g
  | .peek => .g
  | .advance => .g
  | .pull => .g
  | .rdstat _ => .v
  | .rderr => .g
  | .master _ => .gd
  | .oscwave _ _ _ => .vud
  | .oscduty _ _ _ => .vud
  | .lfoinc _ _ => .vd
  | .vfreq _ _ => .vd
  | .envvol _ _ _ => .vud
  | .envatk _ _ _ => .vud
  | .envdec _ _ _ => .vud
  | .envsus _ _ _ => .vud
  | .envrel _ _ _ => .vud
  | .envgain _ _ _ => .vud
  | .envrpt _ _ _ => .vud
  | .modratio _ _ _ _ => .vuad
  | .modamt _ _ _ _ => .vuad
  | .vbal _ _ => .vd
  | .vibdepth _ _ => .vd
  | .ven _ _ => .vd
  | .noteon _ _ _ => .vad

/-- Every field that the format does not use is zero (R89). -/
def reservedZero (format : Format) (voice unit aux : Byte) (data : Word) : Bool :=
  match format with
  | .g => decide (voice = 0 ∧ unit = 0 ∧ aux = 0 ∧ data = 0)
  | .gd => decide (voice = 0 ∧ unit = 0 ∧ aux = 0)
  | .v => decide (unit = 0 ∧ aux = 0 ∧ data = 0)
  | .vd => decide (unit = 0 ∧ aux = 0)
  | .vud => decide (aux = 0)
  | .vuad => true
  | .vad => decide (unit = 0)

/-! ### Decode -/

/-- The opcode map (R90): the command an opcode names, with its operands taken from the fields; `none` for the 231
opcodes that are not assigned (R92). -/
def instrOf (op voice unit aux : Byte) (data : Word) : Option Instr :=
  match op.toNat with
  | 0x00 => some .nop
  | 0x01 => some .reset
  | 0x02 => some .peek
  | 0x03 => some .advance
  | 0x04 => some .pull
  | 0x05 => some (.rdstat voice)
  | 0x06 => some .rderr
  | 0x07 => some (.master data)
  | 0x10 => some (.oscwave voice unit data)
  | 0x11 => some (.oscduty voice unit data)
  | 0x12 => some (.lfoinc voice data)
  | 0x13 => some (.vfreq voice data)
  | 0x20 => some (.envvol voice unit data)
  | 0x21 => some (.envatk voice unit data)
  | 0x22 => some (.envdec voice unit data)
  | 0x23 => some (.envsus voice unit data)
  | 0x24 => some (.envrel voice unit data)
  | 0x25 => some (.envgain voice unit data)
  | 0x26 => some (.envrpt voice unit data)
  | 0x30 => some (.modratio voice unit aux data)
  | 0x31 => some (.modamt voice unit aux data)
  | 0x40 => some (.vbal voice data)
  | 0x41 => some (.vibdepth voice data)
  | 0x42 => some (.ven voice data)
  | 0x43 => some (.noteon voice aux data)
  | _ => none

/-- What a command word is. -/
inductive Decoded where
  /-- a command -/
  | instr (i : Instr)
  /-- the opcode is not assigned (R92); the other fields are not looked at (R91) -/
  | illegalOpcode (op : Byte)
  /-- an unused field is not zero (R89); `bits` are all the cause bits that apply (R91) -/
  | reservedField (bits : ErrBits)
deriving DecidableEq, Repr

/-- Decode (R91). -/
def decode (w : CmdWord) : Decoded :=
  match instrOf (opField w) (voiceField w) (unitField w) (auxField w) (dataField w) with
  | none => .illegalOpcode (opField w)
  | some i =>
    if reservedZero (formatOf i) (voiceField w) (unitField w) (auxField w) (dataField w) then .instr i
    else .reservedField (errRsvd ||| operandErr i)

/-! ### Encode -/

/-- The word of a command (R81, R90); every field its format does not use is zero (R82). -/
def encode : Instr → CmdWord
  | .nop => packWord 0x00 0 0 0 0
  | .reset => packWord 0x01 0 0 0 0
  | .peek => packWord 0x02 0 0 0 0
  | .advance => packWord 0x03 0 0 0 0
  | .pull => packWord 0x04 0 0 0 0
  | .rdstat voice => packWord 0x05 voice 0 0 0
  | .rderr => packWord 0x06 0 0 0 0
  | .master data => packWord 0x07 0 0 0 data
  | .oscwave voice unit data => packWord 0x10 voice unit 0 data
  | .oscduty voice unit data => packWord 0x11 voice unit 0 data
  | .lfoinc voice data => packWord 0x12 voice 0 0 data
  | .vfreq voice data => packWord 0x13 voice 0 0 data
  | .envvol voice unit data => packWord 0x20 voice unit 0 data
  | .envatk voice unit data => packWord 0x21 voice unit 0 data
  | .envdec voice unit data => packWord 0x22 voice unit 0 data
  | .envsus voice unit data => packWord 0x23 voice unit 0 data
  | .envrel voice unit data => packWord 0x24 voice unit 0 data
  | .envgain voice unit data => packWord 0x25 voice unit 0 data
  | .envrpt voice unit data => packWord 0x26 voice unit 0 data
  | .modratio voice unit aux data => packWord 0x30 voice unit aux data
  | .modamt voice unit aux data => packWord 0x31 voice unit aux data
  | .vbal voice data => packWord 0x40 voice 0 0 data
  | .vibdepth voice data => packWord 0x41 voice 0 0 data
  | .ven voice data => packWord 0x42 voice 0 0 data
  | .noteon voice aux data => packWord 0x43 voice 0 aux data

/-! ### Bytes of a transport (spec/20_memory.md R62, R63) -/

/-- The eight bytes a host sends for a command word, least significant first, the opcode byte last (R62). -/
def bytesOfWord (w : CmdWord) : List Byte :=
  [w.extractLsb' 0 8, w.extractLsb' 8 8, w.extractLsb' 16 8, w.extractLsb' 24 8,
   w.extractLsb' 32 8, w.extractLsb' 40 8, w.extractLsb' 48 8, w.extractLsb' 56 8]

/-- The command word that eight bytes stand for; any other number of bytes is a partial word, which is not a command and
never reaches the core (R63). -/
def wordOfBytes : List Byte → Option CmdWord
  | [b0, b1, b2, b3, b4, b5, b6, b7] =>
    some (b7 ++ (b6 ++ (b5 ++ (b4 ++ (b3 ++ (b2 ++ (b1 ++ b0)))))))
  | _ => none

/-- The four bytes in which a response word is sent to the host, least significant first (R62). -/
def responseBytes (response : Word) : List Byte :=
  [response.extractLsb' 0 8, response.extractLsb' 8 8, response.extractLsb' 16 8, response.extractLsb' 24 8]

/-- The response word that a host reads from four bytes; a response is one whole 32-bit value, so no other number of bytes is
one (R62). -/
def responseOfBytes : List Byte → Option Word
  | [b0, b1, b2, b3] => some (b3 ++ (b2 ++ (b1 ++ b0)))
  | _ => none

/-- The two bytes of a sample taken from a response, in the order they are sent: the response's first two (R62). -/
def sampleBytes (response : Word) : List Byte := (responseBytes response).take 2

/-- The command a decoded word is, if it is one. -/
def Decoded.instr? : Decoded → Option Instr
  | .instr i => some i
  | .illegalOpcode _ => none
  | .reservedField _ => none

/-- The instruction the decoder reads from the `nbits` bits of `w`, laid out as a host transports them (R62). -/
def decodeTableWord (nbits w : Nat) : Option Instr :=
  match wordOfBytes (bytesOfWord (BitVec.ofNat 64 (w % 2 ^ nbits))) with
  | some x => (decode x).instr?
  | none => none

end Sys2Proof
end

