-- ==== Sys2Proof/Config.lean ====
section
/-! DEFINITION. The parameters of an instance (spec/00_scope.md R8): the fixed ones as constants, the OPEN one that a
rule reads, `MAX_POLYPHONY`, as a constant without a body. `FS` is OPEN too, but no rule reads it (R8, R112); it is not
here (notes/assumptions/7.md). -/

namespace Sys2Proof.Config

/-- `NUM_VOICES` (R8): voice `v` is the slot of controller note number `v`. -/
def numVoices : Nat := 128

/-- `max_unsigned` (R8, spec/92_eei_decisions.md D3): the full scale that `MAX_POLYPHONY` voices share. -/
def maxUnsigned : Nat := 65535

/-- `CENT_K` (R8): one cent as a relative frequency change in Q0.32, `round(2^32 * ln 2 / 1200)`. -/
def centK : Int := 2480870

/-- DESIGN CHOICE (notes/assumptions/1.md). `MAX_POLYPHONY - 1` of the instance that was built. R8 leaves
`MAX_POLYPHONY` OPEN, an integer from 1 to 65535; this constant has no body, so nothing can be proved of its value but
the range its type gives. -/
opaque openPolyphony : Fin 65535

/-- Entries 0 to 15 of `SINE_ROM` (spec/40_oscillator.md R116). -/
def sineRow0 : List Nat :=
  [101, 302, 503, 704, 905, 1106, 1307, 1507, 1708, 1909, 2110, 2310, 2511, 2711, 2911, 3112]

/-- Entries 16 to 31 of `SINE_ROM` (spec/40_oscillator.md R116). -/
def sineRow1 : List Nat :=
  [3312, 3512, 3712, 3911, 4111, 4310, 4509, 4708, 4907, 5106, 5305, 5503, 5701, 5899, 6096, 6294]

/-- Entries 32 to 47 of `SINE_ROM` (spec/40_oscillator.md R116). -/
def sineRow2 : List Nat :=
  [6491, 6688, 6885, 7081, 7277, 7473, 7669, 7864, 8059, 8254, 8448, 8642, 8836, 9030, 9223, 9416]

/-- Entries 48 to 63 of `SINE_ROM` (spec/40_oscillator.md R116). -/
def sineRow3 : List Nat :=
  [9608, 9800, 9992, 10183, 10374, 10564, 10754, 10944, 11133, 11322, 11511, 11699, 11886, 12074, 12260, 12446]

/-- Entries 64 to 79 of `SINE_ROM` (spec/40_oscillator.md R116). -/
def sineRow4 : List Nat :=
  [12632, 12817, 13002, 13187, 13370, 13554, 13736, 13919, 14101, 14282, 14462, 14643, 14822, 15001, 15180, 15358]

/-- Entries 80 to 95 of `SINE_ROM` (spec/40_oscillator.md R116). -/
def sineRow5 : List Nat :=
  [15535, 15712, 15888, 16063, 16238, 16413, 16586, 16759, 16932, 17104, 17275, 17445, 17615, 17784, 17953, 18121]

/-- Entries 96 to 111 of `SINE_ROM` (spec/40_oscillator.md R116). -/
def sineRow6 : List Nat :=
  [18288, 18454, 18620, 18785, 18950, 19113, 19276, 19438, 19600, 19761, 19921, 20080, 20238, 20396, 20553, 20709]

/-- Entries 112 to 127 of `SINE_ROM` (spec/40_oscillator.md R116). -/
def sineRow7 : List Nat :=
  [20865, 21019, 21173, 21326, 21479, 21630, 21781, 21930, 22079, 22227, 22375, 22521, 22667, 22812, 22956, 23099]

/-- Entries 128 to 143 of `SINE_ROM` (spec/40_oscillator.md R116). -/
def sineRow8 : List Nat :=
  [23241, 23382, 23522, 23662, 23801, 23938, 24075, 24211, 24346, 24480, 24613, 24746, 24877, 25007, 25137, 25265]

/-- Entries 144 to 159 of `SINE_ROM` (spec/40_oscillator.md R116). -/
def sineRow9 : List Nat :=
  [25393, 25519, 25645, 25770, 25893, 26016, 26138, 26259, 26378, 26497, 26615, 26732, 26848, 26962, 27076, 27189]

/-- Entries 160 to 175 of `SINE_ROM` (spec/40_oscillator.md R116). -/
def sineRow10 : List Nat :=
  [27300, 27411, 27521, 27629, 27737, 27843, 27949, 28053, 28157, 28259, 28360, 28460, 28560, 28658, 28755, 28850]

/-- Entries 176 to 191 of `SINE_ROM` (spec/40_oscillator.md R116). -/
def sineRow11 : List Nat :=
  [28945, 29039, 29131, 29223, 29313, 29403, 29491, 29578, 29664, 29749, 29832, 29915, 29997, 30077, 30156, 30234]

/-- Entries 192 to 207 of `SINE_ROM` (spec/40_oscillator.md R116). -/
def sineRow12 : List Nat :=
  [30311, 30387, 30462, 30535, 30607, 30679, 30749, 30818, 30885, 30952, 31017, 31082, 31145, 31206, 31267, 31327]

/-- Entries 208 to 223 of `SINE_ROM` (spec/40_oscillator.md R116). -/
def sineRow13 : List Nat :=
  [31385, 31442, 31498, 31553, 31607, 31659, 31710, 31760, 31809, 31857, 31903, 31949, 31993, 32036, 32077, 32118]

/-- Entries 224 to 239 of `SINE_ROM` (spec/40_oscillator.md R116). -/
def sineRow14 : List Nat :=
  [32157, 32195, 32232, 32267, 32302, 32335, 32367, 32397, 32427, 32455, 32482, 32508, 32533, 32556, 32578, 32599]

/-- Entries 240 to 255 of `SINE_ROM` (spec/40_oscillator.md R116). -/
def sineRow15 : List Nat :=
  [32619, 32637, 32655, 32671, 32685, 32699, 32711, 32722, 32732, 32741, 32748, 32755, 32759, 32763, 32766, 32767]

/-- `SINE_ROM` (R116): 256 entries, the first quarter of the sine, in the order of their index. -/
def sineTable : List Nat :=
  sineRow0 ++ sineRow1 ++ sineRow2 ++ sineRow3 ++ sineRow4 ++ sineRow5 ++ sineRow6 ++ sineRow7 ++
  sineRow8 ++ sineRow9 ++ sineRow10 ++ sineRow11 ++ sineRow12 ++ sineRow13 ++ sineRow14 ++ sineRow15

end Sys2Proof.Config
end

