-- ==== Sys2Proof/Machine/Params.lean ====
section
/-! DEFINITION. The instance parameter that rules read, `MAX_POLYPHONY`, and the envelope peak derived from it
(spec/00_scope.md R8, R9). Every shared operation that depends on it takes it as an argument. -/

namespace Sys2Proof.Machine

/-- A legal value of `MAX_POLYPHONY`: an integer from 1 to 65535 (R8). -/
structure Params where
  /-- `MAX_POLYPHONY` -/
  maxPolyphony : Nat
  pos : 1 ≤ maxPolyphony
  le : maxPolyphony ≤ 65535
deriving DecidableEq, Repr

/-- `ENV_PEAK = floor(65535 / MAX_POLYPHONY)`: the per-voice peak of an envelope's volume (R8). -/
def Params.envPeak (p : Params) : Nat := Config.maxUnsigned / p.maxPolyphony

/-- DESIGN CHOICE (notes/assumptions/1.md). The parameter of the instance that was built: any legal value, none in
particular. -/
def builtParams : Params where
  maxPolyphony := Config.openPolyphony.val + 1
  pos := Nat.le_add_left 1 _
  le := Config.openPolyphony.isLt

end Sys2Proof.Machine
end

