-- ==== Sys2Proof/Machine/State.lean ====
section
/-! DEFINITION. The state of the core as plain data: the voice file and the two global registers (spec/10_state.md R20 to
R32), the core's three lines to the host (spec/70_reset_and_hazards.md R280, R287), and the instance parameter (R8). -/

namespace Sys2Proof.Machine

/-- The waveform selector `WAVE` (R23, R110), codes 0 to 3 in this order. -/
inductive Waveform where
  /-- 0 -/
  | sine
  /-- 1 -/
  | saw
  /-- 2 -/
  | square
  /-- 3 -/
  | tri
deriving DecidableEq, Repr

/-- The stage `ST` of an envelope (R26, spec/41_envelope.md R141), codes 0 to 4 in this order; 5 to 7 never occur. -/
inductive Stage where
  /-- 0 -/
  | waiting
  /-- 1 -/
  | attack
  /-- 2 -/
  | decay
  /-- 3 -/
  | sustain
  /-- 4 -/
  | release
deriving DecidableEq, Repr

/-- An oscillator (R23). -/
structure Oscillator where
  /-- `INC`: frequency and phase increment, in 2^-32 periods a tick (R112) -/
  inc : Word
  /-- `PHASE`: in 2^-32 periods -/
  phase : Word
  /-- `WAVE` -/
  wave : Waveform
  /-- `DUTY`: the high part of the square wave, in 1/256 -/
  duty : Byte
deriving DecidableEq, Repr

/-- A modulator: an oscillator and four coefficient bytes (R25). -/
structure Modulator where
  /-- `OSC` -/
  osc : Oscillator
  /-- `RATIO` -/
  ratio : Byte
  /-- `RATIO_DIV` -/
  ratioDiv : Byte
  /-- `AMOUNT` -/
  amount : Byte
  /-- `AMOUNT_DIV` -/
  amountDiv : Byte
deriving DecidableEq, Repr

/-- An envelope (R26). -/
structure Envelope where
  /-- `ST` -/
  st : Stage
  /-- `VOL`, Q16.16 -/
  vol : Word
  /-- `TGT` -/
  tgt : Half
  /-- `SLV`, the sustain level latched at the trigger -/
  slv : Half
  /-- `STEP`, Q16.16 -/
  rampStep : Word
  /-- `CNT_A`, samples left in the attack -/
  cntA : Word
  /-- `CNT_D`, samples left in the decay -/
  cntD : Word
  /-- `CNT_R`, samples left in the release -/
  cntR : Word
  /-- `RL_A`, reload value of the attack -/
  rlA : Word
  /-- `RL_D`, reload value of the decay -/
  rlD : Word
  /-- `RL_R`, reload value of the release -/
  rlR : Word
  /-- `SUS`, sustain level in 1/255 of the target -/
  sus : Byte
  /-- `GAIN`, 128 is unity -/
  gain : Byte
  /-- `RPT`, repeat mode -/
  rpt : Bool
deriving DecidableEq, Repr

/-- A voice (R21, R28). -/
structure Voice where
  /-- `C1` -/
  c1 : Oscillator
  /-- `C2` -/
  c2 : Oscillator
  /-- `LFO` -/
  lfo : Oscillator
  /-- `M1` -/
  m1 : Modulator
  /-- `M2` -/
  m2 : Modulator
  /-- `AMP` -/
  amp : Envelope
  /-- `E1` -/
  e1 : Envelope
  /-- `E2` -/
  e2 : Envelope
  /-- `BAL`, in 1/128 -/
  bal : Byte
  /-- `VIBDEPTH`, cents in Q8.8 -/
  vibdepth : Half
  /-- `EN` -/
  en : Bool
  /-- `VBUF`: the lookahead sample, two's complement -/
  vbuf : Word
deriving DecidableEq, Repr

/-- What reaches the core from the host (R287): a command word at the command port, or a new level of the reset input. -/
inductive PortEvent where
  /-- a command word offered at the command port -/
  | command (w : CmdWord)
  /-- the reset input is asserted (`true`) or released (`false`) -/
  | resetLine (asserted : Bool)
deriving DecidableEq, Repr

/-- Nothing stops the core: a wrong command word is rejected and the core goes on (spec/60_exceptions.md R260, R270), so
no fault exists. The type has no constructor. -/
inductive Fault where
deriving DecidableEq, Repr

/-- The ways a step can answer that it has no meaning. -/
inductive Refusal where
  /-- Raised only by an arm of `exec` whose instruction has no meaning yet; no arm does. Safe: the model stops. -/
  | notModelled (mnemonic : String)
deriving DecidableEq, Repr

/-- The state (R20, R21). `inputs`, `responses` and `resetLine` are the lines of R287; they and `params` are the model's own
fields (notes/assumptions/1.md to 4.md). -/
structure State where
  /-- `V[0 .. 127]` -/
  voices : Vector Voice 128
  /-- `MASTER` -/
  master : Byte
  /-- `ERR` -/
  err : ErrBits
  /-- what the host has delivered and the core has not yet taken, oldest first -/
  inputs : List PortEvent
  /-- the words the core has put on its response port, oldest first -/
  responses : List Word
  /-- the level of the reset input -/
  resetLine : Bool
  /-- `MAX_POLYPHONY` of this instance; nothing changes it (R281) -/
  params : Params
deriving DecidableEq, Repr

/-- Reset values of an oscillator (R23, spec/70_reset_and_hazards.md R281). -/
def Oscillator.reset : Oscillator := ⟨0, 0, .sine, 128⟩

/-- Reset values of a modulator (R25, R281). -/
def Modulator.reset : Modulator := ⟨Oscillator.reset, 1, 1, 0, 1⟩

/-- Reset values of an envelope (R26, R281). -/
def Envelope.reset : Envelope :=
  { st := .waiting, vol := 0, tgt := 0, slv := 0, rampStep := 0, cntA := 0, cntD := 0, cntR := 0,
    rlA := 0, rlD := 0, rlR := 0, sus := 255, gain := 128, rpt := false }

/-- Reset values of a voice (R28, R281). -/
def Voice.reset : Voice :=
  { c1 := Oscillator.reset, c2 := Oscillator.reset, lfo := Oscillator.reset,
    m1 := Modulator.reset, m2 := Modulator.reset,
    amp := Envelope.reset, e1 := Envelope.reset, e2 := Envelope.reset,
    bal := 0, vibdepth := 0, en := false, vbuf := 0 }

/-- The voice file after reset (R32). -/
def resetVoices : Vector Voice 128 := ⟨⟨List.replicate 128 Voice.reset⟩, List.length_replicate⟩

/-- The machine right after reset (R32, R280, R281): the reset input is released and no command has arrived (R282). -/
def State.reset : State :=
  { voices := resetVoices, master := 128, err := 0, inputs := [], responses := [], resetLine := false,
    params := builtParams }

end Sys2Proof.Machine
end

