-- ==== Sys2Proof/Machine/Operands.lean ====
section
/-! DEFINITION. How a command's operands are used: the clamps of spec/30_encoding.md R88, the voices a voice operand names
(R86, R87), the unit a unit operand names (spec/20_memory.md R60), and the arithmetic primitives of spec/00_scope.md R11. -/

namespace Sys2Proof.Machine

/-! ### Arithmetic (R11): exact on integers, narrowed where a register is written -/

/-- `asr(x, k) = floor(x / 2^k)` for any sign of `x` (R11). -/
def asr (x : Int) (k : Nat) : Int := x / 2 ^ k

/-- `sat16(x)` (R11). -/
def sat16 (x : Int) : Int := max (-32768) (min 32767 x)

/-- `u32_of_s(x) = x mod 2^32` (R11): the 32-bit pattern of a signed value. -/
def wordOfInt (x : Int) : Word := BitVec.ofInt 32 x

/-- `ceil_div(a, b) = (a + b - 1) // b` for `b > 0` (R11). -/
def ceilDiv (a b : Nat) : Nat := (a + b - 1) / b

/-! ### Clamps of data operands (R88): a value above the target's maximum is replaced by the maximum -/

/-- `min(d, limit)` stored in a byte. -/
def clampByte (d : Word) (limit : Nat) : Byte := BitVec.ofNat 8 (min d.toNat limit)

/-- `min(d, 65535)` stored in 16 bits. -/
def clampHalf (d : Word) : Half := BitVec.ofNat 16 (min d.toNat 65535)

/-- `max(a, 1)`: a divisor of 0 is stored as 1. -/
def clampDivisor (a : Byte) : Byte := BitVec.ofNat 8 (max a.toNat 1)

/-- The waveform of a code 0 to 3 (spec/40_oscillator.md R110). -/
def waveformOfCode : Nat → Waveform
  | 0 => .sine
  | 1 => .saw
  | 2 => .square
  | _ => .tri

/-- `min(d, 3)` as a waveform (R88, R126). -/
def clampWaveform (d : Word) : Waveform := waveformOfCode (min d.toNat 3)

/-! ### Voice operands -/

/-- Whether voice `k` is in `targets(VOICE)` (R87): the one voice of an index up to 127, every voice for 255. -/
def isTarget (voice : Byte) (k : Nat) : Bool := decide (voice.toNat = k ∨ voice.toNat = 255)

/-- The voice file changed voice by voice, `f` being told the index of each. -/
def mapFrom (f : Nat → Voice → Voice) : Nat → List Voice → List Voice
  | _, [] => []
  | k, x :: xs => f k x :: mapFrom f (k + 1) xs

theorem mapFrom_length (f : Nat → Voice → Voice) (k : Nat) (xs : List Voice) :
    (mapFrom f k xs).length = xs.length := by
  induction xs generalizing k with
  | nil => rfl
  | cons x xs ih => exact congrArg (· + 1) (ih (k + 1))

/-- `mapFrom` on the whole voice file. -/
def mapVoices (f : Nat → Voice → Voice) (voices : Vector Voice 128) : Vector Voice 128 :=
  ⟨⟨mapFrom f 0 voices.toArray.toList⟩, (mapFrom_length f 0 _).trans voices.size_toArray⟩

/-- `for v in targets(VOICE)` (R87): the voices a voice operand names, each changed by `f`, all in one step (R86). -/
def onTargets (voice : Byte) (f : Voice → Voice) (voices : Vector Voice 128) : Vector Voice 128 :=
  mapVoices (fun k x => if isTarget voice k then f x else x) voices

/-! ### Unit operands (spec/00_scope.md R12, spec/20_memory.md R60). A unit outside its range names nothing. -/

/-- `OSC(v, u)` changed by `f`: 0 to 4 are `C1`, `C2`, `LFO`, `M1.OSC`, `M2.OSC`. -/
def onOscillator (unit : Byte) (f : Oscillator → Oscillator) (x : Voice) : Voice :=
  match unit.toNat with
  | 0 => { x with c1 := f x.c1 }
  | 1 => { x with c2 := f x.c2 }
  | 2 => { x with lfo := f x.lfo }
  | 3 => { x with m1 := { x.m1 with osc := f x.m1.osc } }
  | 4 => { x with m2 := { x.m2 with osc := f x.m2.osc } }
  | _ => x

/-- `ENV(v, u)` changed by `f`: 0 to 2 are `AMP`, `E1`, `E2`. -/
def onEnvelope (unit : Byte) (f : Envelope → Envelope) (x : Voice) : Voice :=
  match unit.toNat with
  | 0 => { x with amp := f x.amp }
  | 1 => { x with e1 := f x.e1 }
  | 2 => { x with e2 := f x.e2 }
  | _ => x

/-- `MOD(v, u)` changed by `f`: 1 and 2 are `M1`, `M2`. -/
def onModulator (unit : Byte) (f : Modulator → Modulator) (x : Voice) : Voice :=
  match unit.toNat with
  | 1 => { x with m1 := f x.m1 }
  | 2 => { x with m2 := f x.m2 }
  | _ => x

end Sys2Proof.Machine
end

