-- ==== Sys2Proof/Machine/Ops.lean ====
section
/-! DEFINITION. What every command does around its own effect: reject (spec/60_exceptions.md R260), respond
(spec/00_scope.md R13), change voices (spec/30_encoding.md R87), reset (spec/10_state.md R32). The core's one exceptional
event is `Reject`; nothing is saved and nothing is returned from (R263, R264), so there is no return operation. -/

namespace Sys2Proof.Machine

/-- What a meaning answers. -/
abbrev Result := Host.Outcome State Fault Refusal

/-- `Reject(bits)` (R260): `ERR` gets the cause bits; nothing else changes and no response is produced. -/
def State.reject (s : State) (bits : ErrBits) : State := { s with err := s.err ||| bits }

/-- The check order of R91 for a command's index operands: if any cause bit is found the command is rejected before it
writes anything, else its effect is the next state. -/
def accepted (bits : ErrBits) (s : State) (effect : State) : Result :=
  if bits = 0 then .next effect else .next (s.reject bits)

/-- `respond(r)` (R13, R287): the word is put on the response port after the ones before it. -/
def State.respond (s : State) (r : Word) : State := { s with responses := s.responses ++ [r] }

/-- `for v in targets(VOICE)`: the voices the operand names, each changed by `f` (R87). -/
def State.onVoices (s : State) (voice : Byte) (f : Voice → Voice) : State :=
  { s with voices := onTargets voice f s.voices }

/-- The voice a read names (R83). An index above 127 is rejected before it is read. -/
def State.voiceAt (s : State) (voice : Byte) : Voice := s.voices.toArray.toList.getD voice.toNat Voice.reset

/-- Reset of every state element (R32, R244, R280). The lines to the host are no state elements, and the parameter is fixed
when the core is built (R281). -/
def State.resetElements (s : State) : State := { s with voices := resetVoices, master := 128, err := 0 }

end Sys2Proof.Machine
end

