-- ==== Sys2Proof/Machine/Flags.lean ====
section
/-! DEFINITION. The core has no condition codes (spec/10_state.md R30). Its flag operands, the codes of the stages, and the
status word that `RDSTAT` reads (spec/30_encoding.md R88, R93). -/

namespace Sys2Proof.Machine

/-- A flag operand is 1 if `DATA` is not 0 (R88). -/
def flagOf (d : Word) : Bool := decide (d.toNat ≠ 0)

/-- A flag as a bit of a status word. -/
def bitOf (b : Bool) : Nat := if b then 1 else 0

/-- The code of a stage (spec/41_envelope.md R141). -/
def Stage.code : Stage → Nat
  | .waiting => 0
  | .attack => 1
  | .decay => 2
  | .sustain => 3
  | .release => 4

/-- `EN | AMP.ST << 1 | E1.ST << 4 | E2.ST << 7` (spec/44_sample_system.md R245). The four fields do not overlap. -/
def statusWord (x : Voice) : Word :=
  BitVec.ofNat 32 (bitOf x.en + x.amp.st.code * 2 + x.e1.st.code * 16 + x.e2.st.code * 128)

/-- `zext_32(ERR)` (spec/44_sample_system.md R246). -/
def errWord (err : ErrBits) : Word := err.setWidth 32

end Sys2Proof.Machine
end

