-- ==== Sys2Proof/Machine/Ramp.lean ====
section
/-! DEFINITION. The envelope generator's functions: target, ramp step, saturating move, effective volume, `set_volume` and
`adjust` (spec/41_envelope.md R142 to R159). Volumes are Q16.16 integers in [0, ENV_PEAK << 16]; every function computes
exactly on naturals, and the registers it writes hold the result (notes/assumptions/12.md says so for states no run
reaches). -/

namespace Sys2Proof.Machine

/-- `target(level)` for a level of 1 to 255 (R143). -/
def target (p : Params) (level : Byte) : Nat := max 1 (p.envPeak * level.toNat / 255)

/-- `step(dist, n)` (R145): the whole distance for a count of 0, else the distance over the count, rounded up. -/
def stepSize (dist n : Nat) : Nat := if n = 0 then dist else ceilDiv dist n

/-- `toward(v, g, s)` (R146): one sample of a ramp, never past the goal. -/
def toward (v g s : Nat) : Nat :=
  if v < g then min g (v + s) else if g < v then max g (v - s) else v

/-- `VOL[31:16]`, the volume proper (R142). -/
def Envelope.volInt (e : Envelope) : Nat := e.vol.toNat / 2 ^ 16

/-- `eff(E)` (R147): the volume scaled by the gain. -/
def Envelope.eff (e : Envelope) : Nat := e.volInt * e.gain.toNat / 2 ^ 7

/-- `depth(E)` (spec/42_modulator_scaler.md R183): the effective volume as a fraction of the peak, 65536 is 1.0. -/
def Envelope.depth (p : Params) (e : Envelope) : Nat := e.eff * 2 ^ 16 / p.envPeak

/-- `TGT << 16`, the goal of the attack. -/
def Envelope.attackGoal (e : Envelope) : Nat := e.tgt.toNat * 2 ^ 16

/-- `SLV << 16`, the goal of the decay. -/
def Envelope.decayGoal (e : Envelope) : Nat := e.slv.toNat * 2 ^ 16

/-- The trigger branch of `set_volume` (R150, R151), the same from every stage. -/
def Envelope.trigger (p : Params) (e : Envelope) (level : Byte) : Envelope :=
  let tgt := target p level
  { e with
    tgt := BitVec.ofNat 16 tgt
    slv := BitVec.ofNat 16 (tgt * e.sus.toNat / 255)
    cntA := e.rlA
    cntD := e.rlD
    cntR := e.rlR
    vol := 0
    st := .attack
    rampStep := BitVec.ofNat 32 (stepSize (tgt * 2 ^ 16) e.rlA.toNat) }

/-- The note-off branch of `set_volume` (R150, R152), the same from every stage. -/
def Envelope.noteOff (e : Envelope) : Envelope :=
  { e with
    tgt := 0
    st := .release
    rampStep := BitVec.ofNat 32 (stepSize e.vol.toNat e.cntR.toNat) }

/-- `set_volume(E, level)` (R150): a trigger, a note-off request, or nothing in repeat mode (R153). -/
def Envelope.setVolume (p : Params) (e : Envelope) (level : Byte) : Envelope :=
  if 0 < level.toNat then e.trigger p level
  else if e.rpt then e
  else e.noteOff

/-- A remaining count after one sample: a count of 0 is not decremented (R155, R156). -/
def countDown (n : Word) : Word := BitVec.ofNat 32 (n.toNat - 1)

/-- One sample of `ATTACK` (R155): move, count, test for the end. -/
def Envelope.adjustAttack (e : Envelope) : Envelope :=
  let vol := toward e.vol.toNat e.attackGoal e.rampStep.toNat
  let cnt := countDown e.cntA
  let moved := { e with vol := BitVec.ofNat 32 vol, cntA := cnt }
  if cnt.toNat = 0 ∧ vol = e.attackGoal then
    { moved with st := .decay, rampStep := BitVec.ofNat 32 (stepSize (vol - e.decayGoal) e.cntD.toNat) }
  else moved

/-- One sample of `DECAY` (R155). -/
def Envelope.adjustDecay (e : Envelope) : Envelope :=
  let vol := toward e.vol.toNat e.decayGoal e.rampStep.toNat
  let cnt := countDown e.cntD
  let moved := { e with vol := BitVec.ofNat 32 vol, cntD := cnt }
  if cnt.toNat = 0 ∧ vol = e.decayGoal then { moved with st := .sustain } else moved

/-- One sample of `SUSTAIN` (R155, R157): released when the voice was disabled at the start of the tick or in repeat mode;
nothing moves. -/
def Envelope.adjustSustain (e : Envelope) (en : Bool) : Envelope :=
  if en = false ∨ e.rpt = true then
    { e with st := .release, rampStep := BitVec.ofNat 32 (stepSize e.vol.toNat e.cntR.toNat) }
  else e

/-- One sample of `RELEASE` (R155): at its end the full restart of R158 in repeat mode, else `WAITING`, with `true` for
"just became silent". -/
def Envelope.adjustRelease (p : Params) (e : Envelope) : Envelope × Bool :=
  let vol := toward e.vol.toNat 0 e.rampStep.toNat
  let cnt := countDown e.cntR
  let moved := { e with vol := BitVec.ofNat 32 vol, cntR := cnt }
  if cnt.toNat = 0 ∧ vol = 0 then
    if e.rpt then (moved.setVolume p 255, false) else ({ moved with st := .waiting }, true)
  else (moved, false)

/-- `adjust(E, en)` (R155): one sample of an envelope, and whether it just became silent. -/
def Envelope.adjust (p : Params) (e : Envelope) (en : Bool) : Envelope × Bool :=
  match e.st with
  | .waiting => (e, false)
  | .attack => (e.adjustAttack, false)
  | .decay => (e.adjustDecay, false)
  | .sustain => (e.adjustSustain en, false)
  | .release => e.adjustRelease p

end Sys2Proof.Machine
end

