-- ==== Sys2Proof/Machine/Wave.lean ====
section
/-! DEFINITION. The oscillator's functions: the phase accumulator (spec/40_oscillator.md R111), the four waveforms
(R118 to R122) and the quarter-wave sine table (R116, R119). -/

namespace Sys2Proof.Machine

/-- `SINE_ROM[a]` (R116), an integer 0 to 32767. -/
def sineRom (a : Nat) : Nat := Config.sineTable.getD a 0

/-- `sine(p)` (R119): the top ten bits of the phase pick one of 1024 points, folded onto the quarter-wave table. -/
def sine (p : Word) : Int :=
  let i := p.toNat / 2 ^ 22
  let q := i / 256
  let a := if q % 2 = 1 then 255 - i % 256 else i % 256
  let m : Int := sineRom a
  if q / 2 % 2 = 1 then -m else m

/-- `SAW` (R118, R120) of the top half of the phase. -/
def sawWave (x : Nat) : Int := max ((x : Int) - 32768) (-32767)

/-- `SQUARE` (R118, R121): high while the top byte of the phase is below the duty. -/
def squareWave (top : Nat) (duty : Byte) : Int := if top < duty.toNat then 32767 else -32767

/-- `TRI` (R118, R122) of the top half of the phase. -/
def triWave (x : Nat) : Int :=
  if x < 16384 then 2 * (x : Int)
  else if x < 49152 then 65535 - 2 * (x : Int)
  else 2 * (x : Int) - 131070

/-- `wave(sel, p, duty)` (R118): a signed sample in [-32767, 32767]. The phase is reduced modulo 2^32 by its type. -/
def waveSample (sel : Waveform) (p : Word) (duty : Byte) : Int :=
  match sel with
  | .sine => sine p
  | .saw => sawWave (p.toNat / 2 ^ 16)
  | .square => squareWave (p.toNat / 2 ^ 24) duty
  | .tri => triWave (p.toNat / 2 ^ 16)

/-- The sample of an oscillator at its own phase moved by `offset` (R186, R204). -/
def Oscillator.sampleAt (o : Oscillator) (offset : Word) : Int := waveSample o.wave (o.phase + offset) o.duty

/-- `phase_step(O, extra)` (R111): `PHASE <- (PHASE + INC + extra) mod 2^32`. -/
def Oscillator.phaseStep (o : Oscillator) (extra : Int) : Oscillator :=
  { o with phase := wordOfInt ((o.phase.toNat : Int) + (o.inc.toNat : Int) + extra) }

end Sys2Proof.Machine
end

