-- ==== Sys2Proof/Machine/Signal.lean ====
section
/-! DEFINITION. The fixed-point scaler and the voice's signal path: coefficients and phase modulation
(spec/42_modulator_scaler.md R181 to R187), vibrato, balance, output and tick of a voice (spec/43_voice.md R201 to R209),
the mixer (spec/44_sample_system.md R231). -/

namespace Sys2Proof.Machine

/-! ### Coefficients -/

/-- `q8(b, d) = (b * 256) // d` (R181). A divisor of 0 is never stored. -/
def q8 (b d : Byte) : Nat := b.toNat * 256 / d.toNat

/-- `ratio_q(M)` (R182). -/
def Modulator.ratioQ (m : Modulator) : Nat := q8 m.ratio m.ratioDiv

/-- `amount_q(M)` (R182). -/
def Modulator.amountQ (m : Modulator) : Nat := q8 m.amount m.amountDiv

/-- A modulator's increment for a carrier increment: `trunc32((inc * ratio_q) >> 8)` (R187, spec/40_oscillator.md R124). -/
def Modulator.scaledInc (m : Modulator) (inc : Word) : Word := BitVec.ofNat 32 (inc.toNat * m.ratioQ / 2 ^ 8)

/-- The modulator with its increment refreshed from the carrier increment `inc` (R187). -/
def Modulator.refresh (m : Modulator) (inc : Word) : Modulator :=
  { m with osc := { m.osc with inc := m.scaledInc inc } }

/-- `pmscale(w, d, a) = asr(w * d * a, 7) mod 2^32` (R184): a phase offset. -/
def pmscale (w : Int) (d a : Nat) : Word := wordOfInt (asr (w * (d : Int) * (a : Int)) 7)

/-- `set_freq(v, inc)` (spec/40_oscillator.md R124): both carriers and, scaled by their ratios, both modulators. -/
def Voice.setFreq (x : Voice) (inc : Word) : Voice :=
  { x with
    c1 := { x.c1 with inc := inc }
    c2 := { x.c2 with inc := inc }
    m1 := x.m1.refresh inc
    m2 := x.m2.refresh inc }

/-! ### The sample of a voice -/

/-- The phase offset of modulator 1: modulator 2's sample, scaled (R186). -/
def Voice.pm1 (p : Params) (x : Voice) : Word :=
  pmscale (x.m2.osc.sampleAt 0) (x.e2.depth p) x.m2.amountQ

/-- The phase offset of both carriers: modulator 1's sample at its moved phase, scaled (R186). -/
def Voice.pmc (p : Params) (x : Voice) : Word :=
  pmscale (x.m1.osc.sampleAt (x.pm1 p)) (x.e1.depth p) x.m1.amountQ

/-- The balance mix `asr(c1 * (128 - BAL) + c2 * BAL, 7)` (R203). -/
def balanceMix (c1 c2 : Int) (bal : Byte) : Int :=
  asr (c1 * (128 - (bal.toNat : Int)) + c2 * (bal.toNat : Int)) 7

/-- The balanced carriers at the modulated phase (R204). -/
def Voice.mix (p : Params) (x : Voice) : Int :=
  balanceMix (x.c1.sampleAt (x.pmc p)) (x.c2.sampleAt (x.pmc p)) x.bal

/-- `voice_output(v)` (R204): the full product, not shifted. -/
def Voice.output (p : Params) (x : Voice) : Int := x.mix p * (x.amp.eff : Int)

/-! ### One tick of a voice -/

/-- The relative frequency deviation `r = asr(lfo * VIBDEPTH * CENT_K, 23)` (R201). -/
def vibratoRatio (lfo : Int) (depth : Half) : Int := asr (lfo * (depth.toNat : Int) * Config.centK) 23

/-- The vibrato increment `extra = asr(INC * r, 32)` (R202). -/
def vibratoExtra (inc : Word) (r : Int) : Int := asr ((inc.toNat : Int) * r) 32

/-- The vibrato increment of a voice: its LFO read before the LFO advances, and carrier 1's increment (R202, R206). -/
def Voice.extra (x : Voice) : Int := vibratoExtra x.c1.inc (vibratoRatio (x.lfo.sampleAt 0) x.vibdepth)

/-- Group 1 of R206: the five phases. One `extra` serves both carriers (R202). -/
def Voice.stepPhases (x : Voice) : Voice :=
  { x with
    c1 := x.c1.phaseStep x.extra
    c2 := x.c2.phaseStep x.extra
    m1 := { x.m1 with osc := x.m1.osc.phaseStep 0 }
    m2 := { x.m2 with osc := x.m2.osc.phaseStep 0 }
    lfo := x.lfo.phaseStep 0 }

/-- Group 2 of R206: the three envelopes, all with `EN` as it was at the start of the tick; `EN` is cleared when the amplitude
envelope just became silent (R208). -/
def Voice.stepEnvelopes (p : Params) (x : Voice) : Voice :=
  { x with
    amp := (x.amp.adjust p x.en).1
    e1 := (x.e1.adjust p x.en).1
    e2 := (x.e2.adjust p x.en).1
    en := if (x.amp.adjust p x.en).2 then false else x.en }

/-- Group 3 of R206: the lookahead buffer, from the state just written (R210). -/
def Voice.fillBuffer (p : Params) (x : Voice) : Voice := { x with vbuf := wordOfInt (x.output p) }

/-- `voice_advance(v)` (R206). -/
def Voice.advance (p : Params) (x : Voice) : Voice := (x.stepPhases.stepEnvelopes p).fillBuffer p

/-! ### All voices -/

/-- One tick (spec/44_sample_system.md R235): every voice is advanced, enabled or not (R207). -/
def State.tick (s : State) : State := { s with voices := mapVoices (fun _ x => x.advance s.params) s.voices }

/-- What a voice contributes to the mix (R231). -/
def Voice.contribution (x : Voice) : Int := if x.en then x.vbuf.toInt else 0

/-- The exact sum of the enabled voices' buffered samples (R231). -/
def State.mixSum (s : State) : Int := (s.voices.toArray.toList.map Voice.contribution).sum

/-- `mix_out()` (R231): `sat16(asr(acc * MASTER, 23))`. -/
def State.mixOut (s : State) : Int := sat16 (asr (s.mixSum * (s.master.toNat : Int)) 23)

/-- The response of a sample read, `u32_of_s(mix_out())` (spec/30_encoding.md R93). -/
def State.sampleWord (s : State) : Word := wordOfInt s.mixOut

end Sys2Proof.Machine
end

