-- ==== Sys2Proof/Machine/EnvelopeCommands.lean ====
section
/-! DEFINITION. The envelope commands (spec/41_envelope.md R162 to R168). -/

namespace Sys2Proof.Machine

/-- `ENVVOL v, u, d` (R162): `set_volume` at level `min(d, 255)`; `EN` is not touched. -/
def execEnvvol (voice unit : Byte) (data : Word) (s : State) : Result :=
  accepted (voiceErr voice ||| envUnitErr unit) s
    (s.onVoices voice (onEnvelope unit fun e => e.setVolume s.params (clampByte data 255)))

/-- `ENVATK v, u, d` (R163): all 32 bits; read at the next trigger (R148). -/
def execEnvatk (voice unit : Byte) (data : Word) (s : State) : Result :=
  accepted (voiceErr voice ||| envUnitErr unit) s
    (s.onVoices voice (onEnvelope unit fun e => { e with rlA := data }))

/-- `ENVDEC v, u, d` (R164). -/
def execEnvdec (voice unit : Byte) (data : Word) (s : State) : Result :=
  accepted (voiceErr voice ||| envUnitErr unit) s
    (s.onVoices voice (onEnvelope unit fun e => { e with rlD := data }))

/-- `ENVSUS v, u, d` (R165): read at the next trigger (R144). -/
def execEnvsus (voice unit : Byte) (data : Word) (s : State) : Result :=
  accepted (voiceErr voice ||| envUnitErr unit) s
    (s.onVoices voice (onEnvelope unit fun e => { e with sus := clampByte data 255 }))

/-- `ENVREL v, u, d` (R166). -/
def execEnvrel (voice unit : Byte) (data : Word) (s : State) : Result :=
  accepted (voiceErr voice ||| envUnitErr unit) s
    (s.onVoices voice (onEnvelope unit fun e => { e with rlR := data }))

/-- `ENVGAIN v, u, d` (R167): a gain above unity is stored as unity. -/
def execEnvgain (voice unit : Byte) (data : Word) (s : State) : Result :=
  accepted (voiceErr voice ||| envUnitErr unit) s
    (s.onVoices voice (onEnvelope unit fun e => { e with gain := clampByte data 128 }))

/-- `ENVRPT v, u, d` (R168). -/
def execEnvrpt (voice unit : Byte) (data : Word) (s : State) : Result :=
  accepted (voiceErr voice ||| envUnitErr unit) s
    (s.onVoices voice (onEnvelope unit fun e => { e with rpt := flagOf data }))

end Sys2Proof.Machine
end

