-- ==== Sys2Proof/Machine/ModulatorCommands.lean ====
section
/-! DEFINITION. The modulator commands (spec/42_modulator_scaler.md R188, R189). -/

namespace Sys2Proof.Machine

/-- `MODRATIO v, u, a, d` (R188): the ratio byte and its divisor, and the modulator's increment from the voice's carrier
increment (R187). -/
def execModratio (voice unit aux : Byte) (data : Word) (s : State) : Result :=
  accepted (voiceErr voice ||| modUnitErr unit) s
    (s.onVoices voice fun x =>
      onModulator unit
        (fun m => Modulator.refresh { m with ratio := clampByte data 255, ratioDiv := clampDivisor aux } x.c1.inc) x)

/-- `MODAMT v, u, a, d` (R189). -/
def execModamt (voice unit aux : Byte) (data : Word) (s : State) : Result :=
  accepted (voiceErr voice ||| modUnitErr unit) s
    (s.onVoices voice
      (onModulator unit fun m => { m with amount := clampByte data 255, amountDiv := clampDivisor aux }))

end Sys2Proof.Machine
end

