-- ==== Sys2Proof/Machine/OscillatorCommands.lean ====
section
/-! DEFINITION. The oscillator commands (spec/40_oscillator.md R126 to R129). No command writes a phase (R113). -/

namespace Sys2Proof.Machine

/-- `OSCWAVE v, u, d` (R126). -/
def execOscwave (voice unit : Byte) (data : Word) (s : State) : Result :=
  accepted (voiceErr voice ||| oscUnitErr unit) s
    (s.onVoices voice (onOscillator unit fun o => { o with wave := clampWaveform data }))

/-- `OSCDUTY v, u, d` (R127). -/
def execOscduty (voice unit : Byte) (data : Word) (s : State) : Result :=
  accepted (voiceErr voice ||| oscUnitErr unit) s
    (s.onVoices voice (onOscillator unit fun o => { o with duty := clampByte data 255 }))

/-- `LFOINC v, d` (R128). -/
def execLfoinc (voice : Byte) (data : Word) (s : State) : Result :=
  accepted (voiceErr voice) s
    (s.onVoices voice fun x => { x with lfo := { x.lfo with inc := data } })

/-- `VFREQ v, d` (R129). -/
def execVfreq (voice : Byte) (data : Word) (s : State) : Result :=
  accepted (voiceErr voice) s (s.onVoices voice fun x => x.setFreq data)

end Sys2Proof.Machine
end

