-- ==== Sys2Proof/Machine/System.lean ====
section
/-! DEFINITION. The sample and system commands (spec/44_sample_system.md). -/

namespace Sys2Proof.Machine

/-- `NOP` (R243): nothing. -/
def execNop (s : State) : Result := .next s

/-- `RESET` (R244): every state element takes its reset value. -/
def execReset (s : State) : Result := .next s.resetElements

/-- `PEEK` (R233): respond with the current sample; no state is written. -/
def execPeek (s : State) : Result := .next (s.respond s.sampleWord)

/-- `ADVANCE` (R235): one tick; no response. -/
def execAdvance (s : State) : Result := .next s.tick

/-- `PULL` (R237): the sample from before the tick, then the tick. -/
def execPull (s : State) : Result := .next (s.tick.respond s.sampleWord)

/-- `RDSTAT v` (R245): `EN` and the three stages of one voice. -/
def execRdstat (voice : Byte) (s : State) : Result :=
  accepted (voiceReadErr voice) s (s.respond (statusWord (s.voiceAt voice)))

/-- `RDERR` (R246): respond with `ERR`; reading does not clear it. -/
def execRderr (s : State) : Result := .next (s.respond (errWord s.err))

/-- `MASTER d` (R240). -/
def execMaster (data : Word) (s : State) : Result := .next { s with master := clampByte data 128 }

end Sys2Proof.Machine
end

