-- ==== Sys2Proof/Machine/VoiceCommands.lean ====
section
/-! DEFINITION. The voice commands (spec/43_voice.md R212 to R215). -/

namespace Sys2Proof.Machine

/-- `VBAL v, d` (R212). -/
def execVbal (voice : Byte) (data : Word) (s : State) : Result :=
  accepted (voiceErr voice) s (s.onVoices voice fun x => { x with bal := clampByte data 128 })

/-- `VIBDEPTH v, d` (R213). -/
def execVibdepth (voice : Byte) (data : Word) (s : State) : Result :=
  accepted (voiceErr voice) s (s.onVoices voice fun x => { x with vibdepth := clampHalf data })

/-- `VEN v, d` (R214). -/
def execVen (voice : Byte) (data : Word) (s : State) : Result :=
  accepted (voiceErr voice) s (s.onVoices voice fun x => { x with en := flagOf data })

/-- A voice struck (R215): frequency, enabled, the amplitude envelope at the level, both depth envelopes at 255. -/
def Voice.strike (p : Params) (x : Voice) (level : Byte) (inc : Word) : Voice :=
  { x.setFreq inc with
    en := true
    amp := x.amp.setVolume p level
    e1 := x.e1.setVolume p 255
    e2 := x.e2.setVolume p 255 }

/-- `NOTEON v, a, d` (R215). -/
def execNoteon (voice aux : Byte) (data : Word) (s : State) : Result :=
  accepted (voiceErr voice) s (s.onVoices voice fun x => x.strike s.params aux data)

end Sys2Proof.Machine
end

