-- ==== Sys2Proof/Machine/Dispatch.lean ====
section
/-! DEFINITION. One arm per command of spec/30_encoding.md R90, each a call of that command's meaning. -/

namespace Sys2Proof.Machine

/-- The effect of one command on the state (spec/60_exceptions.md R270): always a next state. -/
def exec (i : Instr) (s : State) : Host.Outcome State Fault Refusal :=
  match i with
  | .nop => Sys2Proof.Machine.execNop s
  | .reset => Sys2Proof.Machine.execReset s
  | .peek => Sys2Proof.Machine.execPeek s
  | .advance => Sys2Proof.Machine.execAdvance s
  | .pull => Sys2Proof.Machine.execPull s
  | .rdstat voice => Sys2Proof.Machine.execRdstat voice s
  | .rderr => Sys2Proof.Machine.execRderr s
  | .master data => Sys2Proof.Machine.execMaster data s
  | .oscwave voice unit data => Sys2Proof.Machine.execOscwave voice unit data s
  | .oscduty voice unit data => Sys2Proof.Machine.execOscduty voice unit data s
  | .lfoinc voice data => Sys2Proof.Machine.execLfoinc voice data s
  | .vfreq voice data => Sys2Proof.Machine.execVfreq voice data s
  | .envvol voice unit data => Sys2Proof.Machine.execEnvvol voice unit data s
  | .envatk voice unit data => Sys2Proof.Machine.execEnvatk voice unit data s
  | .envdec voice unit data => Sys2Proof.Machine.execEnvdec voice unit data s
  | .envsus voice unit data => Sys2Proof.Machine.execEnvsus voice unit data s
  | .envrel voice unit data => Sys2Proof.Machine.execEnvrel voice unit data s
  | .envgain voice unit data => Sys2Proof.Machine.execEnvgain voice unit data s
  | .envrpt voice unit data => Sys2Proof.Machine.execEnvrpt voice unit data s
  | .modratio voice unit aux data => Sys2Proof.Machine.execModratio voice unit aux data s
  | .modamt voice unit aux data => Sys2Proof.Machine.execModamt voice unit aux data s
  | .vbal voice data => Sys2Proof.Machine.execVbal voice data s
  | .vibdepth voice data => Sys2Proof.Machine.execVibdepth voice data s
  | .ven voice data => Sys2Proof.Machine.execVen voice data s
  | .noteon voice aux data => Sys2Proof.Machine.execNoteon voice aux data s

end Sys2Proof.Machine
end

