-- ==== Sys2Proof/Machine/Port.lean ====
section
/-! DEFINITION. The command port and the reset input (spec/70_reset_and_hazards.md R280, R287; notes/assumptions/2.md to
6.md): what the core does with the next thing the host delivers. -/

namespace Sys2Proof.Machine

/-- A command word that the core has taken (spec/30_encoding.md R91): executed if it decodes, else rejected with all the cause
bits that apply. -/
def execWord (w : CmdWord) (s : State) : Result :=
  match decode w with
  | .instr i => exec i s
  | .illegalOpcode _ => .next (s.reject errOp)
  | .reservedField bits => .next (s.reject bits)

/-- A new level of the reset input (R280). While it is asserted the state elements hold their reset values; when it is
released they still do. A release without an assertion before it is no event. -/
def State.driveReset (s : State) (asserted : Bool) : State :=
  if asserted = true ∨ s.resetLine = true then { s.resetElements with resetLine := asserted } else s

/-- One step: the core takes the oldest thing the host has delivered. With nothing delivered nothing happens (R282, R269).
While reset is asserted no command is accepted (R280): a word offered then is lost (notes/assumptions/4.md). -/
def stepPort (s : State) : Result :=
  match s.inputs with
  | [] => .next s
  | .resetLine level :: rest => .next ({ s with inputs := rest }.driveReset level)
  | .command w :: rest =>
    if s.resetLine then .next { s with inputs := rest }
    else execWord w { s with inputs := rest }

/-- The host delivers a command word: it is the next thing the core takes, ahead of whatever waits. -/
def State.offer (s : State) (w : CmdWord) : State :=
  { s with inputs := .command w :: s.inputs, resetLine := false }

/-- The pseudo-instructions of the assembler (spec/30_encoding.md R96). The core never sees them. -/
inductive Pseudo where
  /-- `NOTEOFF v` -/
  | noteoff (voice : Byte)
  /-- `MODON v` -/
  | modon (voice : Byte)
  /-- `ENABLE v` -/
  | enable (voice : Byte)
  /-- `DISABLE v` -/
  | disable (voice : Byte)
  /-- `ADSR v, u, a, d, s, r` -/
  | adsr (voice unit : Byte) (attack decay sustain release : Word)
  /-- `PULLN n` -/
  | pulln (n : Nat)
deriving DecidableEq, Repr

/-- The commands a pseudo-instruction stands for, in order (R96). -/
def expand : Pseudo → List Instr
  | .noteoff voice => [.envvol voice 0 0]
  | .modon voice => [.envvol voice 1 255, .envvol voice 2 255]
  | .enable voice => [.ven voice 1]
  | .disable voice => [.ven voice 0]
  | .adsr voice unit attack decay sustain release =>
    [.envatk voice unit attack, .envdec voice unit decay, .envsus voice unit sustain, .envrel voice unit release]
  | .pulln n => List.replicate n .pull

end Sys2Proof.Machine
end

