-- ==== Sys2Proof/Machine/Step.lean ====
section
/-! DEFINITION. One step of the machine, and how a single command is placed where the next step takes it. The core has no
program counter and no fetch (spec/10_state.md R22, spec/20_memory.md R70): the next instruction is the next word the host
delivers. -/

namespace Sys2Proof.Machine

/-- One step (spec/20_memory.md R64, R66): the oldest delivered event is taken whole. -/
def step (s : State) : Host.Outcome State Fault Refusal := stepPort s

/-- The state in which the very next step takes the command word `w` of `nbits` bits (notes/assumptions/6.md). -/
def State.withFetchWord (s : State) (nbits w : Nat) : State := s.offer (BitVec.ofNat 64 (w % 2 ^ nbits))

end Sys2Proof.Machine
end

