-- ==== Sys2Proof/Safety.lean ====
section
/-! DEFINITION. What a good state of the core is: the invariants of spec/10_state.md R24, R27, R28, R29, of
spec/42_modulator_scaler.md R187 and of spec/43_voice.md R205, written as decidable propositions. R27 alone is not kept
by `adjust` from every state that has it (its (f) needs `SLV <= TGT` at the end of the attack, which R26 says of the latched
values); `Envelope.Inv` holds R27's clauses and the three facts R26, R142 and R157 add. -/

namespace Sys2Proof.Machine

/-- R27 (a) to (g), with R26's bounds on `SLV` and `STEP` and R157's value in `SUSTAIN`. (a) holds by the type of `ST`. -/
abbrev Envelope.Inv (p : Params) (e : Envelope) : Prop :=
  e.vol.toNat ≤ p.envPeak * 2 ^ 16 ∧
  e.tgt.toNat ≤ p.envPeak ∧
  e.slv.toNat ≤ p.envPeak ∧
  e.rampStep.toNat ≤ p.envPeak * 2 ^ 16 ∧
  e.gain.toNat ≤ 128 ∧
  (e.st = .waiting → e.vol.toNat = 0 ∧ e.cntR.toNat = 0) ∧
  (e.st = .attack → e.vol.toNat ≤ e.tgt.toNat * 2 ^ 16 ∧ 1 ≤ e.tgt.toNat ∧ e.slv.toNat ≤ e.tgt.toNat) ∧
  (e.st = .decay → e.slv.toNat * 2 ^ 16 ≤ e.vol.toNat ∧ e.vol.toNat ≤ e.tgt.toNat * 2 ^ 16) ∧
  (e.st = .sustain → e.vol.toNat = e.slv.toNat * 2 ^ 16)

/-- A modulator's divisors are never 0 (R25) and its increment is the carrier's times its ratio (R187). -/
abbrev Modulator.Inv (carrierInc : Word) (m : Modulator) : Prop :=
  1 ≤ m.ratioDiv.toNat ∧ 1 ≤ m.amountDiv.toNat ∧
  m.osc.inc.toNat = (carrierInc.toNat * (m.ratio.toNat * 256 / m.ratioDiv.toNat) / 2 ^ 8) % 2 ^ 32

/-- The carriers agree (R24), the modulators and envelopes are as they should be, the balance and the buffered sample are
in range (R28, R205). -/
abbrev Voice.Inv (p : Params) (x : Voice) : Prop :=
  x.c1.inc = x.c2.inc ∧ x.c1.phase = x.c2.phase ∧
  x.m1.Inv x.c1.inc ∧ x.m2.Inv x.c1.inc ∧
  x.amp.Inv p ∧ x.e1.Inv p ∧ x.e2.Inv p ∧
  x.bal.toNat ≤ 128 ∧
  -(32767 * (p.envPeak : Int)) ≤ x.vbuf.toInt ∧ x.vbuf.toInt ≤ 32767 * (p.envPeak : Int)

/-- Every voice is good and the master volume is in range (R29). -/
abbrev State.Inv (s : State) : Prop :=
  s.master.toNat ≤ 128 ∧ ∀ k (h : k < 128), (s.voices[k]'h).Inv s.params

/-- A step goes on (R270: no stuck state, no trap state). -/
abbrev Continues (s : State) : Prop := ∃ t, step s = .next t

end Sys2Proof.Machine
end

