-- ==== Sys2Proof/Certificates/Slice0/Obligations.lean ====
section
/-! DEFINITION. The statements about the model. The helpers of the first part restate the spec's tables and formulas in their
own terms, not through the model's meanings: what a word's fields are (spec/30_encoding.md R81), which fields each command
uses and which causes a bad field has (R82, R84, R91), how voices and units are changed (R87, spec/00_scope.md R12). -/

namespace Sys2Proof.Claims

open Sys2Proof.Machine

/-! ### Words and their causes -/

/-- `w = OP*2^56 + VOICE*2^48 + UNIT*2^40 + AUX*2^32 + DATA` (R81). -/
def wordOf (op : Nat) (voice unit aux : Byte) (data : Word) : CmdWord :=
  BitVec.ofNat 64
    (op * 2 ^ 56 + voice.toNat * 2 ^ 48 + unit.toNat * 2 ^ 40 + aux.toNat * 2 ^ 32 + data.toNat)

/-- How a command uses the four operand fields (R82): the values allowed in `VOICE` and in `UNIT` with the cause bit of any
other value, and whether `AUX` and `DATA` are used. -/
structure Shape where
  voiceOk : Byte → Bool
  voiceBit : ErrBits
  unitOk : Byte → Bool
  unitBit : ErrBits
  auxUsed : Bool
  dataUsed : Bool

/-- The cause bits R91 collects for the fields of a word of this shape: 2 `ERR_VOICE`, 4 `ERR_UNIT`, 8 `ERR_RSVD`. -/
def Shape.bits (sh : Shape) (voice unit aux : Byte) (data : Word) : ErrBits :=
  (if sh.voiceOk voice then 0 else sh.voiceBit) ||| (if sh.unitOk unit then 0 else sh.unitBit) |||
    (if sh.auxUsed || aux.toNat == 0 then 0 else 8) ||| (if sh.dataUsed || data.toNat == 0 then 0 else 8)

/-- A field the format does not use: 0 is the only value (R89). -/
def unused (b : Byte) : Bool := b.toNat == 0
/-- A voice operand: 0 to 127, or 255 (R83, R86). -/
def anyVoice (b : Byte) : Bool := decide (b.toNat ≤ 127) || b.toNat == 255
/-- The voice operand of `RDSTAT` (R86). -/
def oneVoice (b : Byte) : Bool := decide (b.toNat ≤ 127)
/-- Units 0 to 4 (R84). -/
def oscUnits (b : Byte) : Bool := decide (b.toNat ≤ 4)
/-- Units 0 to 2 (R84). -/
def envUnits (b : Byte) : Bool := decide (b.toNat ≤ 2)
/-- Units 1 and 2 (R84). -/
def modUnits (b : Byte) : Bool := b.toNat == 1 || b.toNat == 2

/-- Format `G`. -/
def shapeG : Shape := ⟨unused, 8, unused, 8, false, false⟩
/-- Format `GD`. -/
def shapeGD : Shape := ⟨unused, 8, unused, 8, false, true⟩
/-- Format `V`. -/
def shapeV : Shape := ⟨oneVoice, 2, unused, 8, false, false⟩
/-- Format `VD`. -/
def shapeVD : Shape := ⟨anyVoice, 2, unused, 8, false, true⟩
/-- Format `VUD` with the units of the command's kind. -/
def shapeVUD (units : Byte → Bool) : Shape := ⟨anyVoice, 2, units, 4, false, true⟩
/-- Format `VUAD`. -/
def shapeVUAD : Shape := ⟨anyVoice, 2, modUnits, 4, true, true⟩
/-- Format `VAD`. -/
def shapeVAD : Shape := ⟨anyVoice, 2, unused, 8, true, true⟩

/-- The format of each of the 25 opcodes (R82, R90); none for the others (R92). -/
def shapeOf (op : Nat) : Option Shape :=
  if op ≤ 0x04 ∨ op = 0x06 then some shapeG
  else if op = 0x05 then some shapeV
  else if op = 0x07 then some shapeGD
  else if op = 0x10 ∨ op = 0x11 then some (shapeVUD oscUnits)
  else if op = 0x12 ∨ op = 0x13 then some shapeVD
  else if 0x20 ≤ op ∧ op ≤ 0x26 then some (shapeVUD envUnits)
  else if op = 0x30 ∨ op = 0x31 then some shapeVUAD
  else if 0x40 ≤ op ∧ op ≤ 0x42 then some shapeVD
  else if op = 0x43 then some shapeVAD
  else none

/-- A command's rule, whole: with no cause bit the command answers the next state that `Effect` describes, as a command and
as the word delivered by the host; with cause bits the word is rejected with exactly those bits. -/
def CommandRule (op : Nat) (sh : Shape) (command : Byte → Byte → Byte → Word → Instr)
    (Effect : Byte → Byte → Byte → Word → State → State → Prop) : Prop :=
  ∀ (voice unit aux : Byte) (data : Word) (s : State),
    (sh.bits voice unit aux data = 0 →
      ∃ t, exec (command voice unit aux data) s = .next t ∧ Effect voice unit aux data s t ∧
        (s.resetLine = false → step (s.offer (wordOf op voice unit aux data)) = .next t)) ∧
    (sh.bits voice unit aux data ≠ 0 → s.resetLine = false →
      step (s.offer (wordOf op voice unit aux data)) = .next { s with err := s.err ||| sh.bits voice unit aux data })

/-- The command's voice operand is out of range (R83, R86). -/
def badVoice (i : Instr) : Bool :=
  match i with
  | .nop | .reset | .peek | .advance | .pull | .rderr | .master _ => false
  | .rdstat v => !oneVoice v
  | .oscwave v _ _ | .oscduty v _ _ | .envvol v _ _ | .envatk v _ _ | .envdec v _ _ | .envsus v _ _ | .envrel v _ _
  | .envgain v _ _ | .envrpt v _ _ | .modratio v _ _ _ | .modamt v _ _ _ | .noteon v _ _ => !anyVoice v
  | .lfoinc v _ | .vfreq v _ | .vbal v _ | .vibdepth v _ | .ven v _ => !anyVoice v

/-- The command's unit operand is out of range (R84). -/
def badUnit (i : Instr) : Bool :=
  match i with
  | .oscwave _ u _ | .oscduty _ u _ => !oscUnits u
  | .envvol _ u _ | .envatk _ u _ | .envdec _ u _ | .envsus _ u _ | .envrel _ u _ | .envgain _ u _ | .envrpt _ u _ =>
    !envUnits u
  | .modratio _ u _ _ | .modamt _ u _ _ => !modUnits u
  | _ => false

/-! ### Voices and units -/

/-- `t` is `s` with the voices named by `voice` changed by `f`: those voices hold what `f` makes of them, every other
voice and everything outside the voice file is as before. -/
def VoicesChanged (voice : Byte) (f : Voice → Voice) (s t : State) : Prop :=
  t = { s with voices := t.voices } ∧
  ∀ k (h : k < 128), t.voices[k] = if voice.toNat = k ∨ voice.toNat = 255 then f s.voices[k] else s.voices[k]

/-- `OSC(v, u)` changed by `f`, the rest of the voice as before. -/
def withOscillator (unit : Byte) (f : Oscillator → Oscillator) (x : Voice) : Voice :=
  if unit.toNat = 0 then { x with c1 := f x.c1 }
  else if unit.toNat = 1 then { x with c2 := f x.c2 }
  else if unit.toNat = 2 then { x with lfo := f x.lfo }
  else if unit.toNat = 3 then { x with m1 := { x.m1 with osc := f x.m1.osc } }
  else { x with m2 := { x.m2 with osc := f x.m2.osc } }

/-- `ENV(v, u)` changed by `f`, the rest of the voice as before. -/
def withEnvelope (unit : Byte) (f : Envelope → Envelope) (x : Voice) : Voice :=
  if unit.toNat = 0 then { x with amp := f x.amp }
  else if unit.toNat = 1 then { x with e1 := f x.e1 }
  else { x with e2 := f x.e2 }

/-- `MOD(v, u)` changed by `f`, the rest of the voice as before. -/
def withModulator (unit : Byte) (f : Modulator → Modulator) (x : Voice) : Voice :=
  if unit.toNat = 1 then { x with m1 := f x.m1 } else { x with m2 := f x.m2 }

/-- The waveform of `min(d, 3)` (R88, spec/40_oscillator.md R110). -/
def waveformOf (d : Word) : Waveform :=
  if d.toNat = 0 then .sine else if d.toNat = 1 then .saw else if d.toNat = 2 then .square else .tri

/-- `trunc32((inc * q8(ratio, div)) >> 8)` (spec/42_modulator_scaler.md R181, R187). -/
def modulatorInc (ratio div : Byte) (inc : Word) : Word :=
  BitVec.ofNat 32 (inc.toNat * (ratio.toNat * 256 / div.toNat) / 2 ^ 8 % 2 ^ 32)

/-- `set_freq(v, inc)` (spec/40_oscillator.md R124). -/
def tuned (inc : Word) (x : Voice) : Voice :=
  { x with
    c1 := { x.c1 with inc := inc }
    c2 := { x.c2 with inc := inc }
    m1 := { x.m1 with osc := { x.m1.osc with inc := modulatorInc x.m1.ratio x.m1.ratioDiv inc } }
    m2 := { x.m2 with osc := { x.m2.osc with inc := modulatorInc x.m2.ratio x.m2.ratioDiv inc } } }

/-- The code of a stage (spec/41_envelope.md R141). -/
def stageCode (st : Stage) : Nat :=
  if st = .waiting then 0 else if st = .attack then 1 else if st = .decay then 2 else if st = .sustain then 3 else 4

/-- `mix_out()` (spec/44_sample_system.md R231): the enabled voices' buffered samples summed over the 128 slots, scaled by
the master volume, shifted right by 23 with floor, saturated to 16 bits. -/
def sampleOf (s : State) : Int :=
  max (-32768) (min 32767
    ((∑ k : Fin 128, if (s.voices[k.val]).en then (s.voices[k.val]).vbuf.toInt else 0) * (s.master.toNat : Int) / 2 ^ 23))

/-! ### Reset values (spec/70_reset_and_hazards.md R281) -/

/-- An oscillator at its reset values. -/
def OscillatorAtReset (o : Oscillator) : Prop :=
  o.inc.toNat = 0 ∧ o.phase.toNat = 0 ∧ o.wave = .sine ∧ o.duty.toNat = 128

/-- A modulator at its reset values. -/
def ModulatorAtReset (m : Modulator) : Prop :=
  OscillatorAtReset m.osc ∧ m.ratio.toNat = 1 ∧ m.ratioDiv.toNat = 1 ∧ m.amount.toNat = 0 ∧ m.amountDiv.toNat = 1

/-- An envelope at its reset values. -/
def EnvelopeAtReset (e : Envelope) : Prop :=
  e.st = .waiting ∧ e.vol.toNat = 0 ∧ e.tgt.toNat = 0 ∧ e.slv.toNat = 0 ∧ e.rampStep.toNat = 0 ∧
  e.cntA.toNat = 0 ∧ e.cntD.toNat = 0 ∧ e.cntR.toNat = 0 ∧ e.rlA.toNat = 0 ∧ e.rlD.toNat = 0 ∧ e.rlR.toNat = 0 ∧
  e.sus.toNat = 255 ∧ e.gain.toNat = 128 ∧ e.rpt = false

/-- A voice at its reset values. -/
def VoiceAtReset (x : Voice) : Prop :=
  OscillatorAtReset x.c1 ∧ OscillatorAtReset x.c2 ∧ OscillatorAtReset x.lfo ∧ ModulatorAtReset x.m1 ∧
  ModulatorAtReset x.m2 ∧ EnvelopeAtReset x.amp ∧ EnvelopeAtReset x.e1 ∧ EnvelopeAtReset x.e2 ∧
  x.bal.toNat = 0 ∧ x.vibdepth.toNat = 0 ∧ x.en = false ∧ x.vbuf.toNat = 0

/-- Every state element at its reset value. -/
def ElementsAtReset (s : State) : Prop :=
  (∀ k (h : k < 128), VoiceAtReset s.voices[k]) ∧ s.master.toNat = 128 ∧ s.err.toNat = 0

/-! ### Runs -/

/-- An envelope after `n` samples with no command between, `en n` being the voice's `EN` at the start of tick `n`. -/
def runEnvelope (p : Params) (en : Nat → Bool) (e : Envelope) : Nat → Envelope
  | 0 => e
  | n + 1 => ((runEnvelope p en e n).adjust p (en n)).1

/-- Commands executed one after the other. -/
def execAll : List Instr → State → Host.Outcome State Fault Refusal
  | [], s => .next s
  | i :: rest, s =>
    match exec i s with
    | .next t => execAll rest t
    | .fault r => .fault r
    | .refused r => .refused r

/-- The command with its voice operand replaced; a command without a voice operand that is broadcast is left as it is. -/
def retarget (voice : Byte) : Instr → Instr
  | .oscwave _ u d => .oscwave voice u d
  | .oscduty _ u d => .oscduty voice u d
  | .lfoinc _ d => .lfoinc voice d
  | .vfreq _ d => .vfreq voice d
  | .envvol _ u d => .envvol voice u d
  | .envatk _ u d => .envatk voice u d
  | .envdec _ u d => .envdec voice u d
  | .envsus _ u d => .envsus voice u d
  | .envrel _ u d => .envrel voice u d
  | .envgain _ u d => .envgain voice u d
  | .envrpt _ u d => .envrpt voice u d
  | .modratio _ u a d => .modratio voice u a d
  | .modamt _ u a d => .modamt voice u a d
  | .vbal _ d => .vbal voice d
  | .vibdepth _ d => .vibdepth voice d
  | .ven _ d => .ven voice d
  | .noteon _ a d => .noteon voice a d
  | i => i

/-- The commands that write voices named by a voice operand: formats `VD`, `VUD`, `VUAD`, `VAD` (R82). -/
def writesVoices (i : Instr) : Bool :=
  match i with
  | .nop | .reset | .peek | .advance | .pull | .rdstat _ | .rderr | .master _ => false
  | _ => true

/-- The commands that answer with a response word (R93). -/
def responds (i : Instr) : Bool :=
  match i with
  | .peek | .pull | .rdstat _ | .rderr => true
  | _ => false

/-- The commands that write a voice parameter and no enabled flag: `VEN` and `NOTEON` left out. -/
def writesParameters (i : Instr) : Bool :=
  match i with
  | .ven _ _ | .noteon _ _ _ => false
  | i => writesVoices i

/-- A voice whose amplitude envelope rests and whose buffered sample is 0. -/
def Resting (x : Voice) : Prop := x.amp.st = .waiting ∧ x.amp.vol.toNat = 0 ∧ x.vbuf.toNat = 0

/-- All of a voice's phases. -/
def phases (x : Voice) : List Word := [x.c1.phase, x.c2.phase, x.lfo.phase, x.m1.osc.phase, x.m2.osc.phase]

/-- Addition of a signed increment to a phase, modulo 2^32 (R111): `q` is `p + inc + extra` reduced into [0, 2^32). -/
def PhaseStepped (o q : Oscillator) (extra : Int) : Prop :=
  q = { o with phase := q.phase } ∧
  (q.phase.toNat : Int) = ((o.phase.toNat : Int) + (o.inc.toNat : Int) + extra) % 2 ^ 32

end Sys2Proof.Claims

open Sys2Proof Sys2Proof.Machine Sys2Proof.Claims

/-! ### Encoding -/

/-- Decoding the word of a command gives the command back, for every command and every operand value. -/
def Obligations.DecodeOfEncodeIsTheCommand : Prop :=
  ∀ i : Instr, decode (encode i) = .instr i

/-- Every accepted word is the encoding of its command, so two different accepted words never mean the same command with
the same operands (R89). -/
def Obligations.AcceptedWordsEncodeBack : Prop :=
  (∀ (w : CmdWord) (i : Instr), decode w = .instr i → encode i = w) ∧
  (∀ (w w' : CmdWord) (i : Instr), decode w = .instr i → decode w' = .instr i → w = w')

/-- Words written out in the spec's examples decode to the commands they are examples of (R95, R188, R215, R237). -/
def Obligations.WordsOfTheSpecDecode : Prop :=
  decode 0x0400000000000000 = .instr .pull ∧
  decode 0x053C000000000000 = .instr (.rdstat 60) ∧
  decode 0x0700000000000040 = .instr (.master 64) ∧
  decode 0x103C010000000001 = .instr (.oscwave 60 1 1) ∧
  decode 0x213C0000000012C0 = .instr (.envatk 60 0 4800) ∧
  decode 0x30FF010200000007 = .instr (.modratio 255 1 2 7) ∧
  decode 0x433C00FF016872B0 = .instr (.noteon 60 255 0x016872B0)

/-- R91 for every one of the 2^64 words: an opcode that is not assigned is rejected with `ERR_OP` alone; an assigned one is
rejected with all the cause bits of its fields together, and with none it is a well-formed command that is executed. -/
def Obligations.EveryWordHasTheOutcomeOfItsFields : Prop :=
  ∀ (w : CmdWord) (s : State), s.resetLine = false →
    match shapeOf (w.extractLsb' 56 8).toNat with
    | none => step (s.offer w) = .next { s with err := s.err ||| 1 }
    | some sh =>
      let bits := sh.bits (w.extractLsb' 48 8) (w.extractLsb' 40 8) (w.extractLsb' 32 8) (w.extractLsb' 0 32)
      (bits ≠ 0 → step (s.offer w) = .next { s with err := s.err ||| bits }) ∧
      (bits = 0 → ∃ i, decode w = .instr i ∧ WellFormed i = true ∧ encode i = w ∧ step (s.offer w) = exec i s)

/-- When the oldest thing the host has delivered is a word that decodes to a command, a step takes that word and is the
command's effect on the rest (R66). -/
def Obligations.StepRunsTheDecodedCommand : Prop :=
  ∀ (s : State) (w : CmdWord) (rest : List PortEvent) (i : Instr),
    s.resetLine = false → s.inputs = .command w :: rest → decode w = .instr i →
      step s = exec i { s with inputs := rest }

/-- No third outcome (R270): every command and every step answers a next state, from every state. -/
def Obligations.EveryCommandAndStepAnswersNext : Prop :=
  (∀ (i : Instr) (s : State), ∃ t, exec i s = .next t) ∧ (∀ s : State, Continues s)

/-- A command with an index operand out of range changes `ERR` alone, by exactly its cause bits (R260, R261): `ERR_VOICE`,
which is 2, when the voice operand is out of range, and `ERR_UNIT`, which is 4, when the unit operand is; both when both are.
Those two are what makes a command ill-formed. -/
def Obligations.IllFormedCommandsOnlySetErr : Prop :=
  ∀ i : Instr, (WellFormed i = false ↔ badVoice i = true ∨ badUnit i = true) ∧
    ∀ s : State, WellFormed i = false →
      exec i s = .next { s with
        err := s.err ||| ((if badVoice i then 2 else 0) ||| (if badUnit i then 4 else 0)) }

/-- Little-endian transport (R62). Of a command word: byte `j` is its bits `8j+7 .. 8j`, eight bytes, the opcode byte last;
they give the word back, and no other number of bytes is a command word (R63). Of a response: byte `j` is its bits
`8j+7 .. 8j`, four bytes, and they give the response back. A sample taken from a response is the response's first two. -/
def Obligations.TransportIsLittleEndian : Prop :=
  (∀ w : CmdWord, (bytesOfWord w).length = 8 ∧ (∀ j, j < 8 → (bytesOfWord w)[j]? = some (w.extractLsb' (8 * j) 8)) ∧
    wordOfBytes (bytesOfWord w) = some w) ∧
  (∀ bytes : List Byte, bytes.length ≠ 8 → wordOfBytes bytes = none) ∧
  (∀ r : Word, (responseBytes r).length = 4 ∧ (∀ j, j < 4 → (responseBytes r)[j]? = some (r.extractLsb' (8 * j) 8)) ∧
    responseOfBytes (responseBytes r) = some r ∧
    sampleBytes r = [r.extractLsb' 0 8, r.extractLsb' 8 8])

/-! ### Reset -/

/-- R281: the state after reset, and after a `RESET` command in any state, has every state element at its reset value; the
configuration parameter is not touched. -/
def Obligations.ResetValuesOfEveryElement : Prop :=
  ElementsAtReset State.reset ∧
  ∀ s : State, ∃ t, exec .reset s = .next t ∧ ElementsAtReset t ∧ t.params = s.params

/-- The reset input: while it is asserted no command is accepted, and once it is released every state element holds its reset
value (R280). That they hold those values from the assertion on, that a word offered while it is asserted is lost, and that
responses already given stay, is the model's choice (notes/assumptions/4.md and 3.md). -/
def Obligations.ResetInputHoldsTheCore : Prop :=
  (∀ (s : State) (rest : List PortEvent), s.inputs = .resetLine true :: rest →
    ∃ t, step s = .next t ∧ ElementsAtReset t ∧ t.resetLine = true ∧ t.inputs = rest ∧ t.params = s.params ∧
      t.responses = s.responses) ∧
  (∀ (s : State) (w : CmdWord) (rest : List PortEvent), s.resetLine = true → s.inputs = .command w :: rest →
    step s = .next { s with inputs := rest }) ∧
  (∀ (s : State) (rest : List PortEvent), s.resetLine = true → s.inputs = .resetLine false :: rest →
    ∃ t, step s = .next t ∧ ElementsAtReset t ∧ t.resetLine = false ∧ t.inputs = rest ∧ t.params = s.params ∧
      t.responses = s.responses)

/-- After reset the output is 0 and stays 0 under any number of `ADVANCE` and `PULL` (R33): the state after reset rests, a
resting state answers 0 and a tick keeps it resting. -/
def Obligations.SilentUntilStruck : Prop :=
  (∀ k (h : k < 128), Resting State.reset.voices[k]) ∧
  ∀ s : State, (∀ k (h : k < 128), Resting s.voices[k]) →
    sampleOf s = 0 ∧
    (∃ t, exec .advance s = .next t ∧ ∀ k (h : k < 128), Resting t.voices[k]) ∧
    (∃ t, exec .pull s = .next t ∧ t.responses = s.responses ++ [0] ∧ ∀ k (h : k < 128), Resting t.voices[k])

/-! ### The commands -/

/-- `NOP` changes nothing (R243). -/
def Obligations.NopChangesNothing : Prop :=
  CommandRule 0x00 shapeG (fun _ _ _ _ => .nop) (fun _ _ _ _ s t => t = s)

/-- `RESET` gives every state element its reset value (R244), the same values as the reset input leaves (R280). Two clauses are
the model's choice: that the elements hold those values from the assertion of the input on, with which the second clause
compares (notes/assumptions/4.md), and that the responses already given stay (notes/assumptions/3.md). -/
def Obligations.ResetCommandResetsEveryElement : Prop :=
  CommandRule 0x01 shapeG (fun _ _ _ _ => .reset) (fun _ _ _ _ s t =>
    ElementsAtReset t ∧ t = { s with voices := t.voices, master := t.master, err := t.err }) ∧
  ∀ (s : State) (rest : List PortEvent), s.inputs = .resetLine true :: rest →
    ∃ t u, exec .reset s = .next t ∧ step s = .next u ∧
      t.voices = u.voices ∧ t.master = u.master ∧ t.err = u.err

/-- `PEEK` responds with the mixed sample and writes no state (R233); after reset it answers 0. -/
def Obligations.PeekAnswersTheMix : Prop :=
  CommandRule 0x02 shapeG (fun _ _ _ _ => .peek) (fun _ _ _ _ s t =>
    t = { s with responses := s.responses ++ [BitVec.ofInt 32 (sampleOf s)] }) ∧
  sampleOf State.reset = 0

/-- `ADVANCE` advances every voice by one tick, enabled or not, and nothing else (R235); after reset it changes nothing. -/
def Obligations.AdvanceTicksEveryVoice : Prop :=
  CommandRule 0x03 shapeG (fun _ _ _ _ => .advance) (fun _ _ _ _ s t =>
    t = { s with voices := t.voices } ∧ ∀ k (h : k < 128), t.voices[k] = (s.voices[k]).advance s.params) ∧
  exec .advance State.reset = .next State.reset

/-- `PULL` responds with the sample from before the tick, then ticks (R237); it is exactly `PEEK` followed by `ADVANCE`, and the
first one after reset answers 0. -/
def Obligations.PullAnswersThenTicks : Prop :=
  CommandRule 0x04 shapeG (fun _ _ _ _ => .pull) (fun _ _ _ _ s t =>
    t = { s with voices := t.voices, responses := s.responses ++ [BitVec.ofInt 32 (sampleOf s)] } ∧
    ∀ k (h : k < 128), t.voices[k] = (s.voices[k]).advance s.params) ∧
  (∀ s : State, exec .pull s = execAll [.peek, .advance] s) ∧
  ∃ t, exec .pull State.reset = .next t ∧ t.responses = [0]

/-- `RDSTAT` responds with `EN` and the three stage codes of one voice, each in its bits, and writes nothing (R245). -/
def Obligations.RdstatAnswersStages : Prop :=
  CommandRule 0x05 shapeV (fun voice _ _ _ => .rdstat voice) (fun voice _ _ _ s t =>
    ∃ r : Word, t = { s with responses := s.responses ++ [r] } ∧
      ∀ h : voice.toNat < 128,
        (r.extractLsb' 0 1).toNat = (if (s.voices[voice.toNat]).en then 1 else 0) ∧
        (r.extractLsb' 1 3).toNat = stageCode (s.voices[voice.toNat]).amp.st ∧
        (r.extractLsb' 4 3).toNat = stageCode (s.voices[voice.toNat]).e1.st ∧
        (r.extractLsb' 7 3).toNat = stageCode (s.voices[voice.toNat]).e2.st ∧
        (r.extractLsb' 10 22).toNat = 0)

/-- `RDERR` responds with `ERR` and does not clear it (R246). -/
def Obligations.RderrAnswersErr : Prop :=
  CommandRule 0x06 shapeG (fun _ _ _ _ => .rderr) (fun _ _ _ _ s t =>
    ∃ r : Word, r.toNat = s.err.toNat ∧ t = { s with responses := s.responses ++ [r] })

/-- `MASTER` stores `min(d, 128)` and nothing else (R240). -/
def Obligations.MasterStoresTheVolume : Prop :=
  CommandRule 0x07 shapeGD (fun _ _ _ data => .master data) (fun _ _ _ data s t =>
    t = { s with master := BitVec.ofNat 8 (min data.toNat 128) })

/-- `OSCWAVE` and `OSCDUTY` write the waveform and the duty of the addressed oscillator, clamped, and nothing else. -/
def Obligations.OscillatorParameterWrites : Prop :=
  CommandRule 0x10 (shapeVUD oscUnits) (fun voice unit _ data => .oscwave voice unit data) (fun voice unit _ data =>
    VoicesChanged voice (withOscillator unit fun o => { o with wave := waveformOf data })) ∧
  CommandRule 0x11 (shapeVUD oscUnits) (fun voice unit _ data => .oscduty voice unit data) (fun voice unit _ data =>
    VoicesChanged voice (withOscillator unit fun o => { o with duty := BitVec.ofNat 8 (min data.toNat 255) }))

/-- `LFOINC` writes all 32 bits of the LFO's increment and nothing else. -/
def Obligations.LfoincWritesTheIncrement : Prop :=
  CommandRule 0x12 shapeVD (fun voice _ _ data => .lfoinc voice data) (fun voice _ _ data =>
    VoicesChanged voice fun x => { x with lfo := { x.lfo with inc := data } })

/-- `VFREQ` is `set_freq` (R124): both carriers take the increment, each modulator the increment times its ratio truncated to
32 bits, and nothing else changes, so phases, `EN` and envelopes are kept. -/
def Obligations.VfreqTunesTheVoice : Prop :=
  CommandRule 0x13 shapeVD (fun voice _ _ data => .vfreq voice data) (fun voice _ _ data =>
    VoicesChanged voice (tuned data))

/-- `ENVVOL` is `set_volume` on the addressed envelope at level `min(d, 255)` and nothing else; `EN` is not touched. -/
def Obligations.EnvvolSetsTheVolume : Prop :=
  CommandRule 0x20 (shapeVUD envUnits) (fun voice unit _ data => .envvol voice unit data) (fun voice unit _ data s t =>
    VoicesChanged voice
      (withEnvelope unit fun e => e.setVolume s.params (BitVec.ofNat 8 (min data.toNat 255))) s t)

/-- The six envelope parameter commands each write one register of the addressed envelope and nothing else: a note in
progress keeps its counts, its step and its sustain level. -/
def Obligations.EnvelopeParameterWrites : Prop :=
  CommandRule 0x21 (shapeVUD envUnits) (fun voice unit _ data => .envatk voice unit data) (fun voice unit _ data =>
    VoicesChanged voice (withEnvelope unit fun e => { e with rlA := data })) ∧
  CommandRule 0x22 (shapeVUD envUnits) (fun voice unit _ data => .envdec voice unit data) (fun voice unit _ data =>
    VoicesChanged voice (withEnvelope unit fun e => { e with rlD := data })) ∧
  CommandRule 0x23 (shapeVUD envUnits) (fun voice unit _ data => .envsus voice unit data) (fun voice unit _ data =>
    VoicesChanged voice (withEnvelope unit fun e => { e with sus := BitVec.ofNat 8 (min data.toNat 255) })) ∧
  CommandRule 0x24 (shapeVUD envUnits) (fun voice unit _ data => .envrel voice unit data) (fun voice unit _ data =>
    VoicesChanged voice (withEnvelope unit fun e => { e with rlR := data })) ∧
  CommandRule 0x25 (shapeVUD envUnits) (fun voice unit _ data => .envgain voice unit data) (fun voice unit _ data =>
    VoicesChanged voice (withEnvelope unit fun e => { e with gain := BitVec.ofNat 8 (min data.toNat 128) })) ∧
  CommandRule 0x26 (shapeVUD envUnits) (fun voice unit _ data => .envrpt voice unit data) (fun voice unit _ data =>
    VoicesChanged voice (withEnvelope unit fun e => { e with rpt := if data.toNat = 0 then false else true }))

/-- `MODRATIO` writes the ratio byte, its divisor (0 stored as 1) and the increment that follows from them and the voice's
carrier increment, and nothing else. -/
def Obligations.ModratioScalesTheIncrement : Prop :=
  CommandRule 0x30 shapeVUAD (fun voice unit aux data => .modratio voice unit aux data) (fun voice unit aux data =>
    VoicesChanged voice fun x =>
      withModulator unit (fun m =>
        { m with
          ratio := BitVec.ofNat 8 (min data.toNat 255)
          ratioDiv := BitVec.ofNat 8 (max aux.toNat 1)
          osc := { m.osc with
            inc := modulatorInc (BitVec.ofNat 8 (min data.toNat 255)) (BitVec.ofNat 8 (max aux.toNat 1)) x.c1.inc } }) x)

/-- `MODAMT` writes the amount byte and its divisor (0 stored as 1) and nothing else. -/
def Obligations.ModamtWritesTheAmount : Prop :=
  CommandRule 0x31 shapeVUAD (fun voice unit aux data => .modamt voice unit aux data) (fun voice unit aux data =>
    VoicesChanged voice (withModulator unit fun m =>
      { m with amount := BitVec.ofNat 8 (min data.toNat 255), amountDiv := BitVec.ofNat 8 (max aux.toNat 1) }))

/-- `VBAL`, `VIBDEPTH` and `VEN` each write one register of the voice, clamped, and nothing else. -/
def Obligations.VoiceRegisterWrites : Prop :=
  CommandRule 0x40 shapeVD (fun voice _ _ data => .vbal voice data) (fun voice _ _ data =>
    VoicesChanged voice fun x => { x with bal := BitVec.ofNat 8 (min data.toNat 128) }) ∧
  CommandRule 0x41 shapeVD (fun voice _ _ data => .vibdepth voice data) (fun voice _ _ data =>
    VoicesChanged voice fun x => { x with vibdepth := BitVec.ofNat 16 (min data.toNat 65535) }) ∧
  CommandRule 0x42 shapeVD (fun voice _ _ data => .ven voice data) (fun voice _ _ data =>
    VoicesChanged voice fun x => { x with en := if data.toNat = 0 then false else true })

/-- `NOTEON` tunes and enables the voice, triggers the amplitude envelope at the level and both depth envelopes at 255, and
does nothing else: phases and the buffered sample are kept. -/
def Obligations.NoteonStrikesTheVoice : Prop :=
  CommandRule 0x43 shapeVAD (fun voice _ aux data => .noteon voice aux data) (fun voice _ aux data s t =>
    VoicesChanged voice (fun x =>
      { tuned data x with
        en := true
        amp := x.amp.setVolume s.params aux
        e1 := x.e1.setVolume s.params 255
        e2 := x.e2.setVolume s.params 255 }) s t)

/-! ### Oscillator -/

/-- The four waveforms as R118 and R119 give them, and their range: every sample is in [-32767, 32767]. -/
def Obligations.WaveformsAndTheirRange : Prop :=
  (∀ (p : Word) (duty : Byte),
    waveSample .saw p duty = max (((p.extractLsb' 16 16).toNat : Int) - 32768) (-32767) ∧
    waveSample .square p duty = (if (p.extractLsb' 24 8).toNat < duty.toNat then 32767 else -32767) ∧
    (let x : Int := ((p.extractLsb' 16 16).toNat : Int)
     waveSample .tri p duty = if x < 16384 then 2 * x else if x < 49152 then 65535 - 2 * x else 2 * x - 131070) ∧
    (let a := (p.extractLsb' 22 8).toNat
     let m : Int := (Config.sineTable.getD (if (p.extractLsb' 30 1).toNat = 1 then 255 - a else a) 0 : Nat)
     waveSample .sine p duty = if (p.extractLsb' 31 1).toNat = 1 then -m else m)) ∧
  (∀ (sel : Waveform) (p : Word) (duty : Byte), -32767 ≤ waveSample sel p duty ∧ waveSample sel p duty ≤ 32767)

/-- R117: the sine table's entries are 1 to 32767, strictly increasing, from 101 to 32767; the sine is antisymmetric over half
a period and odd about the period's boundary, and its magnitude is at most 32767. -/
def Obligations.SineTableProperties : Prop :=
  Config.sineTable.length = 256 ∧
  (∀ a, a < 256 → 1 ≤ sineRom a ∧ sineRom a ≤ 32767) ∧
  (∀ a b, a < b → b < 256 → sineRom a < sineRom b) ∧
  sineRom 0 = 101 ∧ sineRom 255 = 32767 ∧
  (∀ p : Word, sine (p + 0x80000000) = -sine p) ∧
  (∀ p : Word, sine (0xFFFFFFFF - p) = -sine p) ∧
  (∀ p : Word, -32767 ≤ sine p ∧ sine p ≤ 32767)

/-! ### Envelope -/

/-- R143: the target of a level 1 to 255, at least 1 and at most the peak; 255 is the full peak. -/
def Obligations.TargetOfALevel : Prop :=
  ∀ (p : Params) (level : Byte), 1 ≤ level.toNat →
    target p level = max 1 (p.envPeak * level.toNat / 255) ∧
    1 ≤ target p level ∧ target p level ≤ p.envPeak ∧ target p 255 = p.envPeak

/-- R145 and R146: the ramp step is the whole distance for a count of 0 and else the least whole number whose `n`-fold covers
the distance; a move goes toward the goal by at most the step and never past it. -/
def Obligations.RampStepAndMove : Prop :=
  (∀ dist n : Nat,
    (n = 0 → stepSize dist n = dist) ∧
    (0 < n → dist ≤ n * stepSize dist n ∧ ∀ m, dist ≤ n * m → stepSize dist n ≤ m) ∧
    stepSize dist n ≤ dist) ∧
  (∀ v g s : Nat,
    (v < g → toward v g s = min g (v + s)) ∧ (g < v → toward v g s = max g (v - s)) ∧ (v = g → toward v g s = v) ∧
    min v g ≤ toward v g s ∧ toward v g s ≤ max v g)

/-- R183 in every state that keeps the envelope invariants: the effective volume is at most the peak, the depth is at most
65536, which it is exactly at the full peak with unity gain, and it is 0 exactly when the effective volume is 0. -/
def Obligations.EffectiveVolumeAndDepth : Prop :=
  ∀ (p : Params) (e : Envelope), e.Inv p →
    e.eff = (e.vol.extractLsb' 16 16).toNat * e.gain.toNat / 2 ^ 7 ∧
    e.depth p = e.eff * 2 ^ 16 / p.envPeak ∧
    e.eff ≤ p.envPeak ∧ e.depth p ≤ 65536 ∧
    (e.depth p = 65536 ↔ (e.vol.extractLsb' 16 16).toNat = p.envPeak ∧ e.gain.toNat = 128) ∧
    (e.depth p = 0 ↔ e.eff = 0)

/-- R150: `set_volume` from every state of an envelope, exactly: a trigger, a note-off request, or nothing. -/
def Obligations.SetVolumeBranches : Prop :=
  ∀ (p : Params) (e : Envelope) (level : Byte), ∀ y, y = e.setVolume p level →
    (0 < level.toNat →
      y.tgt.toNat = max 1 (p.envPeak * level.toNat / 255) ∧
      y.slv.toNat = y.tgt.toNat * e.sus.toNat / 255 ∧
      y.rampStep.toNat =
        (if e.rlA.toNat = 0 then y.tgt.toNat * 2 ^ 16 else (y.tgt.toNat * 2 ^ 16 + e.rlA.toNat - 1) / e.rlA.toNat) ∧
      y = { e with st := .attack, vol := 0, tgt := y.tgt, slv := y.slv, rampStep := y.rampStep,
                   cntA := e.rlA, cntD := e.rlD, cntR := e.rlR }) ∧
    (level.toNat = 0 → e.rpt = false →
      y.rampStep.toNat =
        (if e.cntR.toNat = 0 then e.vol.toNat else (e.vol.toNat + e.cntR.toNat - 1) / e.cntR.toNat) ∧
      y = { e with st := .release, tgt := 0, rampStep := y.rampStep }) ∧
    (level.toNat = 0 → e.rpt = true → y = e)

/-- R155: one sample of an envelope, stage by stage. The ramp step of a decay is stated for a latched sustain level that does
not exceed the target, as R26 has it. -/
def Obligations.AdjustOneSample : Prop :=
  ∀ (p : Params) (e : Envelope) (en : Bool), ∀ y silent, (y, silent) = e.adjust p en →
    (e.st = .waiting → y = e ∧ silent = false) ∧
    (e.st = .attack → silent = false ∧
      y.vol.toNat = toward e.vol.toNat (e.tgt.toNat * 2 ^ 16) e.rampStep.toNat ∧
      y.cntA.toNat = e.cntA.toNat - 1 ∧
      (y.cntA.toNat = 0 ∧ y.vol.toNat = e.tgt.toNat * 2 ^ 16 → y.st = .decay ∧
        (e.slv.toNat ≤ e.tgt.toNat →
          y.rampStep.toNat = stepSize (y.vol.toNat - e.slv.toNat * 2 ^ 16) e.cntD.toNat)) ∧
      (¬(y.cntA.toNat = 0 ∧ y.vol.toNat = e.tgt.toNat * 2 ^ 16) → y.st = .attack ∧ y.rampStep = e.rampStep) ∧
      y = { e with st := y.st, vol := y.vol, cntA := y.cntA, rampStep := y.rampStep }) ∧
    (e.st = .decay → silent = false ∧
      y.vol.toNat = toward e.vol.toNat (e.slv.toNat * 2 ^ 16) e.rampStep.toNat ∧
      y.cntD.toNat = e.cntD.toNat - 1 ∧
      y.st = (if y.cntD.toNat = 0 ∧ y.vol.toNat = e.slv.toNat * 2 ^ 16 then .sustain else .decay) ∧
      y = { e with st := y.st, vol := y.vol, cntD := y.cntD }) ∧
    (e.st = .sustain → silent = false ∧
      (en = false ∨ e.rpt = true → y.st = .release ∧ y.rampStep.toNat = stepSize e.vol.toNat e.cntR.toNat ∧
        y = { e with st := .release, rampStep := y.rampStep }) ∧
      (en = true → e.rpt = false → y = e)) ∧
    (e.st = .release → ∃ m : Envelope,
      m.vol.toNat = toward e.vol.toNat 0 e.rampStep.toNat ∧ m.cntR.toNat = e.cntR.toNat - 1 ∧
      m = { e with vol := m.vol, cntR := m.cntR } ∧
      (m.cntR.toNat = 0 → m.vol.toNat = 0 → e.rpt = true → y = m.setVolume p 255 ∧ silent = false) ∧
      (m.cntR.toNat = 0 → m.vol.toNat = 0 → e.rpt = false → y = { m with st := .waiting } ∧ silent = true) ∧
      (¬(m.cntR.toNat = 0 ∧ m.vol.toNat = 0) → y = m ∧ silent = false))

/-- R141: the codes of the stages; the stage transitions of `set_volume` and `adjust` are those of the table; no command but
those that call one of the two, and `RESET`, changes a stage. -/
def Obligations.OnlyTheStageTransitionsOfTheTable : Prop :=
  (Stage.waiting.code = 0 ∧ Stage.attack.code = 1 ∧ Stage.decay.code = 2 ∧ Stage.sustain.code = 3 ∧
    Stage.release.code = 4) ∧
  (∀ (i : Instr) (s t : State), i ≠ .advance → i ≠ .pull → i ≠ .reset → (∀ v u d, i ≠ .envvol v u d) →
    (∀ v a d, i ≠ .noteon v a d) → exec i s = .next t → ∀ k (h : k < 128),
      (t.voices[k]).amp.st = (s.voices[k]).amp.st ∧ (t.voices[k]).e1.st = (s.voices[k]).e1.st ∧
      (t.voices[k]).e2.st = (s.voices[k]).e2.st) ∧
  (∀ (p : Params) (e : Envelope) (level : Byte), (e.setVolume p level).st =
    if 0 < level.toNat then .attack else if e.rpt = false then .release else e.st) ∧
  (∀ (p : Params) (e : Envelope) (en : Bool), ∀ y silent, (y, silent) = e.adjust p en →
    (e.st = .waiting → y.st = .waiting) ∧
    (e.st = .attack → y.st =
      if y.cntA.toNat = 0 ∧ y.vol.toNat = e.tgt.toNat * 2 ^ 16 then .decay else .attack) ∧
    (e.st = .decay → y.st =
      if y.cntD.toNat = 0 ∧ y.vol.toNat = e.slv.toNat * 2 ^ 16 then .sustain else .decay) ∧
    (e.st = .sustain → y.st = if en = false ∨ e.rpt = true then .release else .sustain) ∧
    (e.st = .release → y.st =
      if e.cntR.toNat - 1 = 0 ∧ toward e.vol.toNat 0 e.rampStep.toNat = 0 then
        (if e.rpt then .attack else .waiting) else .release) ∧
    (silent = true ↔ e.st = .release ∧ y.st = .waiting))

/-- The envelope invariants hold after every `set_volume` and every `adjust` (R170 P1), and a note-off never raises the volume
(P4). -/
def Obligations.EnvelopeInvariantsAreKept : Prop :=
  ∀ (p : Params) (e : Envelope), e.Inv p →
    (∀ level, (e.setVolume p level).Inv p) ∧ (∀ en, (e.adjust p en).1.Inv p) ∧
    (e.setVolume p 0).vol.toNat ≤ e.vol.toNat

/-- R161: with no command between, a stage entered with a count of `n` lasts exactly `max(n, 1)` samples, its volume moves by
the step on each sample until it is clipped to the goal, and it ends at the goal. -/
def Obligations.StageDurationsAndTrajectories : Prop :=
  (∀ (p : Params) (en : Nat → Bool) (e : Envelope), e.st = .attack → e.vol.toNat = 0 →
    e.rampStep.toNat = stepSize (e.tgt.toNat * 2 ^ 16) e.cntA.toNat →
    (∀ n, n ≤ max e.cntA.toNat 1 →
      (runEnvelope p en e n).vol.toNat = min (e.tgt.toNat * 2 ^ 16) (n * e.rampStep.toNat) ∧
      (n < max e.cntA.toNat 1 → (runEnvelope p en e n).st = .attack)) ∧
    (runEnvelope p en e (max e.cntA.toNat 1)).st = .decay ∧
    (runEnvelope p en e (max e.cntA.toNat 1)).vol.toNat = e.tgt.toNat * 2 ^ 16) ∧
  (∀ (p : Params) (en : Nat → Bool) (e : Envelope), e.st = .decay → e.slv.toNat * 2 ^ 16 ≤ e.vol.toNat →
    e.rampStep.toNat = stepSize (e.vol.toNat - e.slv.toNat * 2 ^ 16) e.cntD.toNat →
    (∀ n, n ≤ max e.cntD.toNat 1 →
      (runEnvelope p en e n).vol.toNat = max (e.slv.toNat * 2 ^ 16) (e.vol.toNat - n * e.rampStep.toNat) ∧
      (n < max e.cntD.toNat 1 → (runEnvelope p en e n).st = .decay)) ∧
    (runEnvelope p en e (max e.cntD.toNat 1)).st = .sustain ∧
    (runEnvelope p en e (max e.cntD.toNat 1)).vol.toNat = e.slv.toNat * 2 ^ 16) ∧
  (∀ (p : Params) (en : Nat → Bool) (e : Envelope), e.st = .release →
    e.rampStep.toNat = stepSize e.vol.toNat e.cntR.toNat →
    (∀ n, n < max e.cntR.toNat 1 →
      (runEnvelope p en e n).vol.toNat = e.vol.toNat - n * e.rampStep.toNat ∧
      (runEnvelope p en e n).st = .release) ∧
    (runEnvelope p en e (max e.cntR.toNat 1)).st = (if e.rpt then .attack else .waiting) ∧
    (runEnvelope p en e (max e.cntR.toNat 1)).vol.toNat = 0)

/-- The silent tail (R170 P2): after a note-off outside repeat mode, from any stage, at most `max(CNT_R, 1)` samples bring the
envelope to `WAITING` at volume 0, where it stays with effective volume 0. -/
def Obligations.SilentTailAfterNoteOff : Prop :=
  ∀ (p : Params) (en : Nat → Bool) (e : Envelope), e.rpt = false →
    ∀ n, max e.cntR.toNat 1 ≤ n →
      (runEnvelope p en (e.setVolume p 0) n).st = .waiting ∧
      (runEnvelope p en (e.setVolume p 0) n).vol.toNat = 0 ∧
      (runEnvelope p en (e.setVolume p 0) n).eff = 0

/-- R170 P5: outside repeat mode, in an enabled voice, a triggered envelope reaches `SUSTAIN` after exactly
`max(CNT_A, 1) + max(CNT_D, 1)` samples and stays there at the latched sustain level. -/
def Obligations.SustainIsReachedAndHeld : Prop :=
  ∀ (p : Params) (e : Envelope) (level : Byte), 0 < level.toNat → e.rpt = false →
    ∀ y, y = e.setVolume p level →
    (∀ n, n < max e.rlA.toNat 1 + max e.rlD.toNat 1 → (runEnvelope p (fun _ => true) y n).st ≠ .sustain) ∧
    (∀ n, max e.rlA.toNat 1 + max e.rlD.toNat 1 ≤ n →
      (runEnvelope p (fun _ => true) y n).st = .sustain ∧
      (runEnvelope p (fun _ => true) y n).vol.toNat = y.slv.toNat * 2 ^ 16)

/-- The repeat cycle (R158): in repeat mode an envelope triggered at 255 runs attack, decay, one sample of sustain and release,
and after `max(RL_A,1) + max(RL_D,1) + 1 + max(RL_R,1)` samples it is exactly as just after the trigger, whether the voice is
enabled or not. -/
def Obligations.RepeatCycleReturnsToItsStart : Prop :=
  ∀ (p : Params) (en : Nat → Bool) (e : Envelope), e.rpt = true →
    ∀ y a d r, y = e.setVolume p 255 → a = max e.rlA.toNat 1 → d = max e.rlD.toNat 1 → r = max e.rlR.toNat 1 →
    (∀ n, n < a → (runEnvelope p en y n).st = .attack) ∧
    (∀ n, a ≤ n → n < a + d → (runEnvelope p en y n).st = .decay) ∧
    (runEnvelope p en y (a + d)).st = .sustain ∧
    (∀ n, a + d < n → n < a + d + 1 + r → (runEnvelope p en y n).st = .release) ∧
    runEnvelope p en y (a + d + 1 + r) = y

/-! ### Scaler and voice -/

/-- R184: the phase-modulation scaler is the exact product shifted right by 7 with floor and reduced modulo 2^32; for the
ranges of its operands the product is below 2^47 in magnitude; at full depth and amount 1.0 the offset is the sample times
2^17. -/
def Obligations.PhaseModulationScaler : Prop :=
  (∀ (w : Int) (d a : Nat), ((pmscale w d a).toNat : Int) = (w * (d : Int) * (a : Int) / 2 ^ 7) % 2 ^ 32) ∧
  (∀ (w : Int) (d a : Nat), -32767 ≤ w → w ≤ 32767 → d ≤ 65536 → a ≤ 65280 →
    -(2 ^ 47) < w * (d : Int) * (a : Int) ∧ w * (d : Int) * (a : Int) < 2 ^ 47) ∧
  (∀ w : Int, pmscale w 65536 256 = BitVec.ofInt 32 (w * 2 ^ 17))

/-- With modulator 2's amount or depth 0 modulator 1 runs unmodulated; with modulator 1's amount or depth 0 the carriers are
plain oscillators whatever the modulators do, and the sample is the balanced carriers at their own phases (R186). -/
def Obligations.ModulationOffIsPlain : Prop :=
  ∀ (p : Params) (x : Voice),
    (x.m2.amountQ = 0 ∨ x.e2.depth p = 0 → x.pm1 p = 0) ∧
    (x.m1.amountQ = 0 ∨ x.e1.depth p = 0 →
      x.output p =
        balanceMix (waveSample x.c1.wave x.c1.phase x.c1.duty) (waveSample x.c2.wave x.c2.phase x.c2.duty) x.bal *
          (x.amp.eff : Int))

/-- Headroom of one voice (R205) in every state that keeps the invariants, with R9's bounds on the peak: a voice's sample is at
most `32767 * ENV_PEAK` in magnitude, and the lookahead buffer holds it exactly (R28). -/
def Obligations.VoiceOutputHeadroom : Prop :=
  (∀ p : Params, 1 ≤ p.envPeak ∧ p.maxPolyphony * p.envPeak ≤ 65535) ∧
  (∀ (p : Params) (x : Voice), x.Inv p →
    -(32767 * (p.envPeak : Int)) ≤ x.output p ∧ x.output p ≤ 32767 * (p.envPeak : Int) ∧
    (x.fillBuffer p).vbuf.toInt = x.output p)

/-- R206: one tick of a voice. The phases step, the carriers by the vibrato's extra increment besides (R201, R202, the LFO read
before it advances); each envelope is adjusted once with `EN` as it was; `EN` is cleared when the amplitude envelope just
became silent; the buffer is the output of the state just written; nothing else changes. -/
def Obligations.TickOfAVoice : Prop :=
  ∀ (p : Params) (x : Voice), ∀ y r extra, y = x.advance p →
    r = waveSample x.lfo.wave x.lfo.phase x.lfo.duty * (x.vibdepth.toNat : Int) * 2480870 / 2 ^ 23 →
    extra = (x.c1.inc.toNat : Int) * r / 2 ^ 32 →
    PhaseStepped x.c1 y.c1 extra ∧ PhaseStepped x.c2 y.c2 extra ∧ PhaseStepped x.lfo y.lfo 0 ∧
    PhaseStepped x.m1.osc y.m1.osc 0 ∧ y.m1 = { x.m1 with osc := y.m1.osc } ∧
    PhaseStepped x.m2.osc y.m2.osc 0 ∧ y.m2 = { x.m2 with osc := y.m2.osc } ∧
    y.amp = (x.amp.adjust p x.en).1 ∧ y.e1 = (x.e1.adjust p x.en).1 ∧ y.e2 = (x.e2.adjust p x.en).1 ∧
    y.en = (x.en && !(x.amp.adjust p x.en).2) ∧
    y.vbuf = BitVec.ofInt 32 (y.output p) ∧
    y.bal = x.bal ∧ y.vibdepth = x.vibdepth

/-- R204: the voice's sample, written out: modulator 2 moves modulator 1's phase, modulator 1 the carriers', the carriers are
balanced and scaled by the amplitude envelope. -/
def Obligations.OutputOfAVoice : Prop :=
  ∀ (p : Params) (x : Voice), ∀ w2 pm1 w1 pmc c1 c2 mix,
    w2 = waveSample x.m2.osc.wave x.m2.osc.phase x.m2.osc.duty →
    pm1 = pmscale w2 (x.e2.eff * 2 ^ 16 / p.envPeak) (x.m2.amount.toNat * 256 / x.m2.amountDiv.toNat) →
    w1 = waveSample x.m1.osc.wave (x.m1.osc.phase + pm1) x.m1.osc.duty →
    pmc = pmscale w1 (x.e1.eff * 2 ^ 16 / p.envPeak) (x.m1.amount.toNat * 256 / x.m1.amountDiv.toNat) →
    c1 = waveSample x.c1.wave (x.c1.phase + pmc) x.c1.duty →
    c2 = waveSample x.c2.wave (x.c2.phase + pmc) x.c2.duty →
    mix = (c1 * (128 - (x.bal.toNat : Int)) + c2 * (x.bal.toNat : Int)) / 2 ^ 7 →
    x.output p = mix * ((x.amp.vol.toNat / 2 ^ 16 * x.amp.gain.toNat / 2 ^ 7 : Nat) : Int)

/-- The vibrato's relative deviation never exceeds 635,100,000 in magnitude (R201), and with a depth of 0 there is no extra
increment whatever the LFO does (R202). -/
def Obligations.VibratoIsBounded : Prop :=
  (∀ (sel : Waveform) (p : Word) (duty : Byte) (depth : Half),
    -635100000 ≤ vibratoRatio (waveSample sel p duty) depth ∧
    vibratoRatio (waveSample sel p duty) depth ≤ 635100000) ∧
  (∀ x : Voice, x.vibdepth.toNat = 0 → x.extra = 0)

/-- R203: the balance mix is exactly carrier 1 at 0, exactly carrier 2 at 128, the floor of the mean at 64, and in range
wherever the balance is. -/
def Obligations.BalanceMix : Prop :=
  ∀ (c1 c2 : Int) (bal : Byte),
    balanceMix c1 c2 bal = (c1 * (128 - (bal.toNat : Int)) + c2 * (bal.toNat : Int)) / 2 ^ 7 ∧
    balanceMix c1 c2 0 = c1 ∧ balanceMix c1 c2 128 = c2 ∧ balanceMix c1 c2 64 = (c1 + c2) / 2 ∧
    (bal.toNat ≤ 128 → -32767 ≤ c1 → c1 ≤ 32767 → -32767 ≤ c2 → c2 ≤ 32767 →
      -32767 ≤ balanceMix c1 c2 bal ∧ balanceMix c1 c2 bal ≤ 32767)

/-! ### Mixer -/

/-- The polyphony guarantee (R232): in every state that keeps the invariants, with at most `MAX_POLYPHONY` voices enabled,
saturation changes nothing and the sample is in [-32767, 32767]; with more it saturates and never wraps. -/
def Obligations.PolyphonyHeadroom : Prop :=
  (∀ s : State, s.Inv →
    (Finset.univ.filter fun k : Fin 128 => (s.voices[k.val]).en = true).card ≤ s.params.maxPolyphony →
    ∀ acc, acc = (∑ k : Fin 128, if (s.voices[k.val]).en then (s.voices[k.val]).vbuf.toInt else 0) →
      -(32767 * 65535) ≤ acc ∧ acc ≤ 32767 * 65535 ∧
      s.mixOut = acc * (s.master.toNat : Int) / 2 ^ 23 ∧ -32767 ≤ s.mixOut ∧ s.mixOut ≤ 32767) ∧
  (∀ s : State, s.mixOut = sampleOf s ∧ -32768 ≤ s.mixOut ∧ s.mixOut ≤ 32767)

/-- The word that `PEEK` and `PULL` put on the response port is a signed 16-bit sample, sign-extended (R93); the two bytes a
transport takes from it, low byte first, are the sample in two's complement (R62). -/
def Obligations.SampleResponsesAreSignExtended : Prop :=
  ∀ (i : Instr) (s t : State), i = .peek ∨ i = .pull → exec i s = .next t →
    ∃ r : Word, t.responses = s.responses ++ [r] ∧ r = (r.extractLsb' 0 16).signExtend 32 ∧ r.toInt = sampleOf s ∧
      ∃ low high : Byte, sampleBytes r = [low, high] ∧ (high ++ low : BitVec 16).toInt = sampleOf s

/-! ### The whole machine -/

/-- The invariants hold in the state after reset. -/
def Obligations.InvariantsHoldAtReset : Prop := State.reset.Inv

/-- The invariants are kept by every step, from every state that has them, whatever the host delivers: R24 and R187 on the
carriers and modulators, R27 on the envelopes, the ranges of R25, R28 and R29, the buffered sample's bound of R205. -/
def Obligations.EveryStepKeepsTheInvariants : Prop :=
  ∀ s t : State, s.Inv → step s = .next t → t.Inv

/-- No command but a tick or a reset changes a phase (R113): in particular `NOTEON` does not restart the phases. -/
def Obligations.PhasesMoveOnlyOnTicks : Prop :=
  ∀ (i : Instr) (s t : State), i ≠ .advance → i ≠ .pull → i ≠ .reset → exec i s = .next t →
    ∀ k (h : k < 128), phases t.voices[k] = phases s.voices[k]

/-- `ERR` bits are sticky (R264): a step that is neither a `RESET` command nor a change of the reset input clears none. -/
def Obligations.ErrBitsAreSticky : Prop :=
  ∀ s t : State, step s = .next t →
    (∀ rest, s.inputs ≠ .command 0x0100000000000000 :: rest) → (∀ level rest, s.inputs ≠ .resetLine level :: rest) →
    s.err &&& t.err = s.err

/-- The life cycle of `EN` (R208): it changes only by `NOTEON`, `VEN`, `RESET` and a tick, and a tick clears it exactly when the
amplitude envelope goes from `RELEASE` to `WAITING`. -/
def Obligations.EnabledFlagLifeCycle : Prop :=
  ∀ (i : Instr) (s t : State), exec i s = .next t → ∀ k (h : k < 128),
    ((t.voices[k]).en ≠ (s.voices[k]).en →
      i = .advance ∨ i = .pull ∨ i = .reset ∨ (∃ v d, i = .ven v d) ∨ (∃ v a d, i = .noteon v a d)) ∧
    (i = .advance ∨ i = .pull →
      (t.voices[k]).en =
        ((s.voices[k]).en && !decide ((s.voices[k]).amp.st = .release ∧ (t.voices[k]).amp.st = .waiting)))

/-- Voices are independent (R209): what a command leaves in a voice depends on that voice and the parameter alone, on no other
voice and on no global register. -/
def Obligations.VoicesAreIndependent : Prop :=
  ∀ (i : Instr) (s s' t t' : State) (k : Nat) (h : k < 128), s.params = s'.params → s.voices[k] = s'.voices[k] →
    exec i s = .next t → exec i s' = .next t' → t.voices[k] = t'.voices[k]

/-- R86: a broadcast command is the same command executed once for each voice, for every command that writes voices and every
value of its other operands; `RDSTAT` has no broadcast. -/
def Obligations.BroadcastIsEveryVoiceOnce : Prop :=
  (∀ (i : Instr) (s : State), writesVoices i = true →
    exec (retarget 255 i) s =
      execAll ((List.range 128).map fun k => retarget (BitVec.ofNat 8 k) i) s) ∧
  (∀ s : State, exec (.rdstat 255) s = .next { s with err := s.err ||| 2 })

/-- Repeating a command at once changes nothing more, for every command but the two ticks: a command that answers no response,
or that is rejected for an index out of range, `RDSTAT` among those; a read in range writes no state element; a rejected word
repeated sets no further bit (R65). -/
def Obligations.RepeatedCommandsChangeNothingMore : Prop :=
  (∀ (i : Instr) (s t : State), responds i = false ∨ WellFormed i = false → i ≠ .advance → exec i s = .next t →
    exec i t = .next t) ∧
  (∀ (i : Instr) (s t : State), responds i = true → i ≠ .pull → WellFormed i = true → exec i s = .next t →
    t = { s with responses := t.responses }) ∧
  (∀ (w : CmdWord) (s t : State), s.resetLine = false → (∀ i, decode w ≠ .instr i) → step (s.offer w) = .next t →
    step (t.offer w) = .next t)

/-- The lookahead buffer (R290): no command but a tick or a reset changes a buffered sample, and a write of a voice parameter
does not change the sample that the next read returns. -/
def Obligations.ParameterWritesWaitForTheNextTick : Prop :=
  (∀ (i : Instr) (s t : State), i ≠ .advance → i ≠ .pull → i ≠ .reset → exec i s = .next t →
    ∀ k (h : k < 128), (t.voices[k]).vbuf = (s.voices[k]).vbuf) ∧
  (∀ (i : Instr) (s t : State), writesParameters i = true → exec i s = .next t → sampleOf t = sampleOf s)

/-- The order of a `MODRATIO` and a `VFREQ` or a `NOTEON` does not matter for the final state (R188), whatever their operands
and whether they address the same voices or not, in every state. -/
def Obligations.RatioAndFrequencyCommute : Prop :=
  ∀ (s : State) (v u a v' a' : Byte) (d d' : Word),
    execAll [.modratio v u a d, .vfreq v' d'] s = execAll [.vfreq v' d', .modratio v u a d] s ∧
    execAll [.modratio v u a d, .noteon v' a' d'] s = execAll [.noteon v' a' d', .modratio v u a d] s
end

