-- ==== Sys2Proof/Laws/State.lean ====
section
/-! SUPPORT. The value of each field of State after each update of the shared operations, so that no proof unfolds a record
update. -/

namespace Sys2Proof.Machine

@[simp] theorem State.reject_voices (s : State) (bits : ErrBits) : (s.reject bits).voices = s.voices := rfl
@[simp] theorem State.reject_master (s : State) (bits : ErrBits) : (s.reject bits).master = s.master := rfl
@[simp] theorem State.reject_err (s : State) (bits : ErrBits) : (s.reject bits).err = s.err ||| bits := rfl
@[simp] theorem State.reject_inputs (s : State) (bits : ErrBits) : (s.reject bits).inputs = s.inputs := rfl
@[simp] theorem State.reject_responses (s : State) (bits : ErrBits) : (s.reject bits).responses = s.responses := rfl
@[simp] theorem State.reject_resetLine (s : State) (bits : ErrBits) : (s.reject bits).resetLine = s.resetLine := rfl
@[simp] theorem State.reject_params (s : State) (bits : ErrBits) : (s.reject bits).params = s.params := rfl

@[simp] theorem State.respond_voices (s : State) (r : Word) : (s.respond r).voices = s.voices := rfl
@[simp] theorem State.respond_master (s : State) (r : Word) : (s.respond r).master = s.master := rfl
@[simp] theorem State.respond_err (s : State) (r : Word) : (s.respond r).err = s.err := rfl
@[simp] theorem State.respond_inputs (s : State) (r : Word) : (s.respond r).inputs = s.inputs := rfl
@[simp] theorem State.respond_responses (s : State) (r : Word) : (s.respond r).responses = s.responses ++ [r] := rfl
@[simp] theorem State.respond_resetLine (s : State) (r : Word) : (s.respond r).resetLine = s.resetLine := rfl
@[simp] theorem State.respond_params (s : State) (r : Word) : (s.respond r).params = s.params := rfl

@[simp] theorem State.onVoices_voices (s : State) (voice : Byte) (f : Voice → Voice) : (s.onVoices voice f).voices = onTargets voice f s.voices := rfl
@[simp] theorem State.onVoices_master (s : State) (voice : Byte) (f : Voice → Voice) : (s.onVoices voice f).master = s.master := rfl
@[simp] theorem State.onVoices_err (s : State) (voice : Byte) (f : Voice → Voice) : (s.onVoices voice f).err = s.err := rfl
@[simp] theorem State.onVoices_inputs (s : State) (voice : Byte) (f : Voice → Voice) : (s.onVoices voice f).inputs = s.inputs := rfl
@[simp] theorem State.onVoices_responses (s : State) (voice : Byte) (f : Voice → Voice) : (s.onVoices voice f).responses = s.responses := rfl
@[simp] theorem State.onVoices_resetLine (s : State) (voice : Byte) (f : Voice → Voice) : (s.onVoices voice f).resetLine = s.resetLine := rfl
@[simp] theorem State.onVoices_params (s : State) (voice : Byte) (f : Voice → Voice) : (s.onVoices voice f).params = s.params := rfl

@[simp] theorem State.resetElements_voices (s : State) : (s.resetElements).voices = resetVoices := rfl
@[simp] theorem State.resetElements_master (s : State) : (s.resetElements).master = 128 := rfl
@[simp] theorem State.resetElements_err (s : State) : (s.resetElements).err = 0 := rfl
@[simp] theorem State.resetElements_inputs (s : State) : (s.resetElements).inputs = s.inputs := rfl
@[simp] theorem State.resetElements_responses (s : State) : (s.resetElements).responses = s.responses := rfl
@[simp] theorem State.resetElements_resetLine (s : State) : (s.resetElements).resetLine = s.resetLine := rfl
@[simp] theorem State.resetElements_params (s : State) : (s.resetElements).params = s.params := rfl

@[simp] theorem State.tick_voices (s : State) : (s.tick).voices = mapVoices (fun _ x => x.advance s.params) s.voices := rfl
@[simp] theorem State.tick_master (s : State) : (s.tick).master = s.master := rfl
@[simp] theorem State.tick_err (s : State) : (s.tick).err = s.err := rfl
@[simp] theorem State.tick_inputs (s : State) : (s.tick).inputs = s.inputs := rfl
@[simp] theorem State.tick_responses (s : State) : (s.tick).responses = s.responses := rfl
@[simp] theorem State.tick_resetLine (s : State) : (s.tick).resetLine = s.resetLine := rfl
@[simp] theorem State.tick_params (s : State) : (s.tick).params = s.params := rfl

@[simp] theorem State.offer_voices (s : State) (w : CmdWord) : (s.offer w).voices = s.voices := rfl
@[simp] theorem State.offer_master (s : State) (w : CmdWord) : (s.offer w).master = s.master := rfl
@[simp] theorem State.offer_err (s : State) (w : CmdWord) : (s.offer w).err = s.err := rfl
@[simp] theorem State.offer_inputs (s : State) (w : CmdWord) : (s.offer w).inputs = .command w :: s.inputs := rfl
@[simp] theorem State.offer_responses (s : State) (w : CmdWord) : (s.offer w).responses = s.responses := rfl
@[simp] theorem State.offer_resetLine (s : State) (w : CmdWord) : (s.offer w).resetLine = false := rfl
@[simp] theorem State.offer_params (s : State) (w : CmdWord) : (s.offer w).params = s.params := rfl

@[simp] theorem Voice.setFreq_c1 (x : Voice) (inc : Word) : (x.setFreq inc).c1 = { x.c1 with inc := inc } := rfl
@[simp] theorem Voice.setFreq_c2 (x : Voice) (inc : Word) : (x.setFreq inc).c2 = { x.c2 with inc := inc } := rfl
@[simp] theorem Voice.setFreq_lfo (x : Voice) (inc : Word) : (x.setFreq inc).lfo = x.lfo := rfl
@[simp] theorem Voice.setFreq_m1 (x : Voice) (inc : Word) : (x.setFreq inc).m1 = x.m1.refresh inc := rfl
@[simp] theorem Voice.setFreq_m2 (x : Voice) (inc : Word) : (x.setFreq inc).m2 = x.m2.refresh inc := rfl
@[simp] theorem Voice.setFreq_amp (x : Voice) (inc : Word) : (x.setFreq inc).amp = x.amp := rfl
@[simp] theorem Voice.setFreq_e1 (x : Voice) (inc : Word) : (x.setFreq inc).e1 = x.e1 := rfl
@[simp] theorem Voice.setFreq_e2 (x : Voice) (inc : Word) : (x.setFreq inc).e2 = x.e2 := rfl
@[simp] theorem Voice.setFreq_bal (x : Voice) (inc : Word) : (x.setFreq inc).bal = x.bal := rfl
@[simp] theorem Voice.setFreq_vibdepth (x : Voice) (inc : Word) : (x.setFreq inc).vibdepth = x.vibdepth := rfl
@[simp] theorem Voice.setFreq_en (x : Voice) (inc : Word) : (x.setFreq inc).en = x.en := rfl
@[simp] theorem Voice.setFreq_vbuf (x : Voice) (inc : Word) : (x.setFreq inc).vbuf = x.vbuf := rfl

@[simp] theorem Voice.stepPhases_c1 (x : Voice) : (x.stepPhases).c1 = x.c1.phaseStep x.extra := rfl
@[simp] theorem Voice.stepPhases_c2 (x : Voice) : (x.stepPhases).c2 = x.c2.phaseStep x.extra := rfl
@[simp] theorem Voice.stepPhases_lfo (x : Voice) : (x.stepPhases).lfo = x.lfo.phaseStep 0 := rfl
@[simp] theorem Voice.stepPhases_m1 (x : Voice) : (x.stepPhases).m1 = { x.m1 with osc := x.m1.osc.phaseStep 0 } := rfl
@[simp] theorem Voice.stepPhases_m2 (x : Voice) : (x.stepPhases).m2 = { x.m2 with osc := x.m2.osc.phaseStep 0 } := rfl
@[simp] theorem Voice.stepPhases_amp (x : Voice) : (x.stepPhases).amp = x.amp := rfl
@[simp] theorem Voice.stepPhases_e1 (x : Voice) : (x.stepPhases).e1 = x.e1 := rfl
@[simp] theorem Voice.stepPhases_e2 (x : Voice) : (x.stepPhases).e2 = x.e2 := rfl
@[simp] theorem Voice.stepPhases_bal (x : Voice) : (x.stepPhases).bal = x.bal := rfl
@[simp] theorem Voice.stepPhases_vibdepth (x : Voice) : (x.stepPhases).vibdepth = x.vibdepth := rfl
@[simp] theorem Voice.stepPhases_en (x : Voice) : (x.stepPhases).en = x.en := rfl
@[simp] theorem Voice.stepPhases_vbuf (x : Voice) : (x.stepPhases).vbuf = x.vbuf := rfl

@[simp] theorem Voice.stepEnvelopes_c1 (x : Voice) (p : Params) : (x.stepEnvelopes p).c1 = x.c1 := rfl
@[simp] theorem Voice.stepEnvelopes_c2 (x : Voice) (p : Params) : (x.stepEnvelopes p).c2 = x.c2 := rfl
@[simp] theorem Voice.stepEnvelopes_lfo (x : Voice) (p : Params) : (x.stepEnvelopes p).lfo = x.lfo := rfl
@[simp] theorem Voice.stepEnvelopes_m1 (x : Voice) (p : Params) : (x.stepEnvelopes p).m1 = x.m1 := rfl
@[simp] theorem Voice.stepEnvelopes_m2 (x : Voice) (p : Params) : (x.stepEnvelopes p).m2 = x.m2 := rfl
@[simp] theorem Voice.stepEnvelopes_amp (x : Voice) (p : Params) : (x.stepEnvelopes p).amp = (x.amp.adjust p x.en).1 := rfl
@[simp] theorem Voice.stepEnvelopes_e1 (x : Voice) (p : Params) : (x.stepEnvelopes p).e1 = (x.e1.adjust p x.en).1 := rfl
@[simp] theorem Voice.stepEnvelopes_e2 (x : Voice) (p : Params) : (x.stepEnvelopes p).e2 = (x.e2.adjust p x.en).1 := rfl
@[simp] theorem Voice.stepEnvelopes_bal (x : Voice) (p : Params) : (x.stepEnvelopes p).bal = x.bal := rfl
@[simp] theorem Voice.stepEnvelopes_vibdepth (x : Voice) (p : Params) : (x.stepEnvelopes p).vibdepth = x.vibdepth := rfl
@[simp] theorem Voice.stepEnvelopes_en (x : Voice) (p : Params) : (x.stepEnvelopes p).en = if (x.amp.adjust p x.en).2 then false else x.en := rfl
@[simp] theorem Voice.stepEnvelopes_vbuf (x : Voice) (p : Params) : (x.stepEnvelopes p).vbuf = x.vbuf := rfl

@[simp] theorem Voice.fillBuffer_c1 (x : Voice) (p : Params) : (x.fillBuffer p).c1 = x.c1 := rfl
@[simp] theorem Voice.fillBuffer_c2 (x : Voice) (p : Params) : (x.fillBuffer p).c2 = x.c2 := rfl
@[simp] theorem Voice.fillBuffer_lfo (x : Voice) (p : Params) : (x.fillBuffer p).lfo = x.lfo := rfl
@[simp] theorem Voice.fillBuffer_m1 (x : Voice) (p : Params) : (x.fillBuffer p).m1 = x.m1 := rfl
@[simp] theorem Voice.fillBuffer_m2 (x : Voice) (p : Params) : (x.fillBuffer p).m2 = x.m2 := rfl
@[simp] theorem Voice.fillBuffer_amp (x : Voice) (p : Params) : (x.fillBuffer p).amp = x.amp := rfl
@[simp] theorem Voice.fillBuffer_e1 (x : Voice) (p : Params) : (x.fillBuffer p).e1 = x.e1 := rfl
@[simp] theorem Voice.fillBuffer_e2 (x : Voice) (p : Params) : (x.fillBuffer p).e2 = x.e2 := rfl
@[simp] theorem Voice.fillBuffer_bal (x : Voice) (p : Params) : (x.fillBuffer p).bal = x.bal := rfl
@[simp] theorem Voice.fillBuffer_vibdepth (x : Voice) (p : Params) : (x.fillBuffer p).vibdepth = x.vibdepth := rfl
@[simp] theorem Voice.fillBuffer_en (x : Voice) (p : Params) : (x.fillBuffer p).en = x.en := rfl
@[simp] theorem Voice.fillBuffer_vbuf (x : Voice) (p : Params) : (x.fillBuffer p).vbuf = wordOfInt (x.output p) := rfl

@[simp] theorem Voice.strike_c1 (x : Voice) (p : Params) (level : Byte) (inc : Word) : (x.strike p level inc).c1 = { x.c1 with inc := inc } := rfl
@[simp] theorem Voice.strike_c2 (x : Voice) (p : Params) (level : Byte) (inc : Word) : (x.strike p level inc).c2 = { x.c2 with inc := inc } := rfl
@[simp] theorem Voice.strike_lfo (x : Voice) (p : Params) (level : Byte) (inc : Word) : (x.strike p level inc).lfo = x.lfo := rfl
@[simp] theorem Voice.strike_m1 (x : Voice) (p : Params) (level : Byte) (inc : Word) : (x.strike p level inc).m1 = x.m1.refresh inc := rfl
@[simp] theorem Voice.strike_m2 (x : Voice) (p : Params) (level : Byte) (inc : Word) : (x.strike p level inc).m2 = x.m2.refresh inc := rfl
@[simp] theorem Voice.strike_amp (x : Voice) (p : Params) (level : Byte) (inc : Word) : (x.strike p level inc).amp = x.amp.setVolume p level := rfl
@[simp] theorem Voice.strike_e1 (x : Voice) (p : Params) (level : Byte) (inc : Word) : (x.strike p level inc).e1 = x.e1.setVolume p 255 := rfl
@[simp] theorem Voice.strike_e2 (x : Voice) (p : Params) (level : Byte) (inc : Word) : (x.strike p level inc).e2 = x.e2.setVolume p 255 := rfl
@[simp] theorem Voice.strike_bal (x : Voice) (p : Params) (level : Byte) (inc : Word) : (x.strike p level inc).bal = x.bal := rfl
@[simp] theorem Voice.strike_vibdepth (x : Voice) (p : Params) (level : Byte) (inc : Word) : (x.strike p level inc).vibdepth = x.vibdepth := rfl
@[simp] theorem Voice.strike_en (x : Voice) (p : Params) (level : Byte) (inc : Word) : (x.strike p level inc).en = true := rfl
@[simp] theorem Voice.strike_vbuf (x : Voice) (p : Params) (level : Byte) (inc : Word) : (x.strike p level inc).vbuf = x.vbuf := rfl

@[simp] theorem Voice.advance_c1 (x : Voice) (p : Params) : (x.advance p).c1 = x.c1.phaseStep x.extra := rfl
@[simp] theorem Voice.advance_c2 (x : Voice) (p : Params) : (x.advance p).c2 = x.c2.phaseStep x.extra := rfl
@[simp] theorem Voice.advance_lfo (x : Voice) (p : Params) : (x.advance p).lfo = x.lfo.phaseStep 0 := rfl
@[simp] theorem Voice.advance_m1 (x : Voice) (p : Params) : (x.advance p).m1 = { x.m1 with osc := x.m1.osc.phaseStep 0 } := rfl
@[simp] theorem Voice.advance_m2 (x : Voice) (p : Params) : (x.advance p).m2 = { x.m2 with osc := x.m2.osc.phaseStep 0 } := rfl
@[simp] theorem Voice.advance_amp (x : Voice) (p : Params) : (x.advance p).amp = (x.amp.adjust p x.en).1 := rfl
@[simp] theorem Voice.advance_e1 (x : Voice) (p : Params) : (x.advance p).e1 = (x.e1.adjust p x.en).1 := rfl
@[simp] theorem Voice.advance_e2 (x : Voice) (p : Params) : (x.advance p).e2 = (x.e2.adjust p x.en).1 := rfl
@[simp] theorem Voice.advance_bal (x : Voice) (p : Params) : (x.advance p).bal = x.bal := rfl
@[simp] theorem Voice.advance_vibdepth (x : Voice) (p : Params) : (x.advance p).vibdepth = x.vibdepth := rfl
@[simp] theorem Voice.advance_en (x : Voice) (p : Params) : (x.advance p).en = if (x.amp.adjust p x.en).2 then false else x.en := rfl
@[simp] theorem Voice.advance_vbuf (x : Voice) (p : Params) : (x.advance p).vbuf = wordOfInt ((x.stepPhases.stepEnvelopes p).output p) := rfl

@[simp] theorem Oscillator.phaseStep_inc (o : Oscillator) (extra : Int) : (o.phaseStep extra).inc = o.inc := rfl
@[simp] theorem Oscillator.phaseStep_wave (o : Oscillator) (extra : Int) : (o.phaseStep extra).wave = o.wave := rfl
@[simp] theorem Oscillator.phaseStep_duty (o : Oscillator) (extra : Int) : (o.phaseStep extra).duty = o.duty := rfl
@[simp] theorem Oscillator.phaseStep_phase (o : Oscillator) (extra : Int) : (o.phaseStep extra).phase = wordOfInt ((o.phase.toNat : Int) + (o.inc.toNat : Int) + extra) := rfl

@[simp] theorem Modulator.refresh_osc (m : Modulator) (inc : Word) : (m.refresh inc).osc = { m.osc with inc := m.scaledInc inc } := rfl
@[simp] theorem Modulator.refresh_ratio (m : Modulator) (inc : Word) : (m.refresh inc).ratio = m.ratio := rfl
@[simp] theorem Modulator.refresh_ratioDiv (m : Modulator) (inc : Word) : (m.refresh inc).ratioDiv = m.ratioDiv := rfl
@[simp] theorem Modulator.refresh_amount (m : Modulator) (inc : Word) : (m.refresh inc).amount = m.amount := rfl
@[simp] theorem Modulator.refresh_amountDiv (m : Modulator) (inc : Word) : (m.refresh inc).amountDiv = m.amountDiv := rfl

/-- A step with nothing delivered (R282). -/
theorem step_idle (s : State) (h : s.inputs = []) : step s = .next s := by
  simp [step, stepPort, h]

/-- A step whose oldest event is a command word, reset not asserted (R66, R91). -/
theorem step_command (s : State) (w : CmdWord) (rest : List PortEvent) (h : s.inputs = .command w :: rest)
    (hr : s.resetLine = false) : step s = execWord w { s with inputs := rest } := by
  simp [step, stepPort, h, hr]

/-- A step whose oldest event is a command word while reset is asserted (R280). -/
theorem step_command_in_reset (s : State) (w : CmdWord) (rest : List PortEvent) (h : s.inputs = .command w :: rest)
    (hr : s.resetLine = true) : step s = .next { s with inputs := rest } := by
  simp [step, stepPort, h, hr]

/-- A step whose oldest event is a level of the reset input (R280). -/
theorem step_resetLine (s : State) (level : Bool) (rest : List PortEvent) (h : s.inputs = .resetLine level :: rest) :
    step s = .next ({ s with inputs := rest }.driveReset level) := by
  simp [step, stepPort, h]

/-- The word just offered is the one the next step takes. -/
theorem step_offer (s : State) (w : CmdWord) (hr : s.resetLine = false) : step (s.offer w) = execWord w s := by
  rw [step_command (s.offer w) w s.inputs rfl rfl]
  cases s
  simp_all [State.offer]

/-- Everything `accepted` can answer: the effect when no cause bit is found, else the rejection (R91, R260). -/
theorem accepted_cases (bits : ErrBits) (s effect t : State) (h : accepted bits s effect = .next t) :
    (bits = 0 ∧ t = effect) ∨ (bits ≠ 0 ∧ t = s.reject bits) := by
  unfold accepted at h
  split at h <;> simp_all

@[simp] theorem accepted_zero (s effect : State) : accepted 0 s effect = .next effect := rfl

theorem accepted_of_ne (bits : ErrBits) (s effect : State) (h : bits ≠ 0) :
    accepted bits s effect = .next (s.reject bits) := if_neg h

/-- `accepted` always answers a next state (R270). -/
theorem accepted_next (bits : ErrBits) (s effect : State) :
    accepted bits s effect = .next (if bits = 0 then effect else s.reject bits) := by
  unfold accepted
  split <;> rfl

end Sys2Proof.Machine
end

