-- ==== Sys2Proof/Laws/Arith.lean ====
section
/-! SUPPORT. The registers hold what the rules compute: narrowing changes nothing where the widths of
spec/42_modulator_scaler.md R190 say so. -/

namespace Sys2Proof.Machine

@[simp] theorem clampByte_toNat (d : Word) (limit : Nat) (h : limit < 256) :
    (clampByte d limit).toNat = min d.toNat limit := by
  simp [clampByte]
  omega

@[simp] theorem clampHalf_toNat (d : Word) : (clampHalf d).toNat = min d.toNat 65535 := by
  simp [clampHalf]

@[simp] theorem clampDivisor_toNat (a : Byte) : (clampDivisor a).toNat = max a.toNat 1 := by
  have := a.isLt
  simp [clampDivisor]
  omega

@[simp] theorem countDown_toNat (n : Word) : (countDown n).toNat = n.toNat - 1 := by
  have := n.isLt
  simp [countDown]
  omega

/-- `ENV_PEAK` is at least 1 (R9). -/
theorem Params.envPeak_pos (p : Params) : 1 ≤ p.envPeak :=
  (Nat.one_le_div_iff p.pos).mpr p.le

theorem Params.envPeak_le (p : Params) : p.envPeak ≤ 65535 := Nat.div_le_self _ _

theorem target_pos (p : Params) (level : Byte) : 1 ≤ target p level := Nat.le_max_left _ _

/-- The target never exceeds the peak (R142, R143). -/
theorem target_le (p : Params) (level : Byte) : target p level ≤ p.envPeak := by
  have hp := p.envPeak_pos
  have hl : level.toNat ≤ 255 := by have := level.isLt; omega
  have : p.envPeak * level.toNat / 255 ≤ p.envPeak := by
    apply Nat.div_le_of_le_mul
    rw [Nat.mul_comm 255]
    exact Nat.mul_le_mul_left _ hl
  exact Nat.max_le.mpr ⟨hp, this⟩

/-- A fraction in 1/255 never exceeds the whole (R144). -/
theorem fraction_le (t : Nat) (b : Byte) : t * b.toNat / 255 ≤ t := by
  have hb : b.toNat ≤ 255 := by have := b.isLt; omega
  apply Nat.div_le_of_le_mul
  rw [Nat.mul_comm 255]
  exact Nat.mul_le_mul_left _ hb

/-- `step(dist, n) <= dist` (R145). -/
theorem stepSize_le (dist n : Nat) : stepSize dist n ≤ dist := by
  unfold stepSize ceilDiv
  split
  · exact Nat.le_refl _
  · rename_i hn
    rcases Nat.eq_zero_or_pos dist with rfl | hd
    · have : (0 + n - 1) / n = 0 := Nat.div_eq_of_lt (by omega)
      omega
    · apply Nat.div_le_of_le_mul
      have : dist + n ≤ n * dist + 1 := by nlinarith [Nat.pos_of_ne_zero hn]
      omega

/-- `n` steps cover the distance (R145). -/
theorem stepSize_covers (dist n : Nat) (hn : 0 < n) : dist ≤ n * stepSize dist n := by
  unfold stepSize ceilDiv
  rw [if_neg (by omega)]
  have h := Nat.div_add_mod (dist + n - 1) n
  have h2 := Nat.mod_lt (dist + n - 1) hn
  generalize (dist + n - 1) / n = q at *
  omega

theorem stepSize_zero_count (dist : Nat) : stepSize dist 0 = dist := rfl

/-- A move ends between where it began and its goal (R146). -/
theorem toward_le_max (v g s : Nat) : toward v g s ≤ max v g := by
  unfold toward
  split
  · omega
  · split <;> omega

theorem toward_ge_min (v g s : Nat) : min v g ≤ toward v g s := by
  unfold toward
  split
  · omega
  · split <;> omega

@[simp] theorem toward_self (g s : Nat) : toward g g s = g := by simp [toward]

end Sys2Proof.Machine
end

