-- ==== Sys2Proof/Laws/Decode.lean ====
section
/-! SUPPORT. The fields of a packed word, what `decode` does with it, and the cause bits of a command's operands. -/

namespace Sys2Proof

theorem append_toNat {a b : Nat} (x : BitVec a) (y : BitVec b) : (x ++ y).toNat = x.toNat * 2 ^ b + y.toNat := by
  rw [BitVec.toNat_append, ← Nat.shiftLeft_add_eq_or_of_lt y.isLt, Nat.shiftLeft_eq]

/-- `w = OP * 2^56 + VOICE * 2^48 + UNIT * 2^40 + AUX * 2^32 + DATA` (R81). -/
theorem packWord_toNat (op voice unit aux : Byte) (data : Word) :
    (packWord op voice unit aux data).toNat =
      op.toNat * 2 ^ 56 + voice.toNat * 2 ^ 48 + unit.toNat * 2 ^ 40 + aux.toNat * 2 ^ 32 + data.toNat := by
  unfold packWord
  rw [append_toNat, append_toNat, append_toNat, append_toNat]
  omega

@[simp] theorem opField_packWord (op voice unit aux : Byte) (data : Word) :
    opField (packWord op voice unit aux data) = op := by
  apply BitVec.eq_of_toNat_eq
  rw [opField, BitVec.extractLsb'_toNat, packWord_toNat, Nat.shiftRight_eq_div_pow]
  omega

@[simp] theorem voiceField_packWord (op voice unit aux : Byte) (data : Word) :
    voiceField (packWord op voice unit aux data) = voice := by
  apply BitVec.eq_of_toNat_eq
  rw [voiceField, BitVec.extractLsb'_toNat, packWord_toNat, Nat.shiftRight_eq_div_pow]
  omega

@[simp] theorem unitField_packWord (op voice unit aux : Byte) (data : Word) :
    unitField (packWord op voice unit aux data) = unit := by
  apply BitVec.eq_of_toNat_eq
  rw [unitField, BitVec.extractLsb'_toNat, packWord_toNat, Nat.shiftRight_eq_div_pow]
  omega

@[simp] theorem auxField_packWord (op voice unit aux : Byte) (data : Word) :
    auxField (packWord op voice unit aux data) = aux := by
  apply BitVec.eq_of_toNat_eq
  rw [auxField, BitVec.extractLsb'_toNat, packWord_toNat, Nat.shiftRight_eq_div_pow]
  omega

@[simp] theorem dataField_packWord (op voice unit aux : Byte) (data : Word) :
    dataField (packWord op voice unit aux data) = data := by
  apply BitVec.eq_of_toNat_eq
  rw [dataField, BitVec.extractLsb'_toNat, packWord_toNat, Nat.shiftRight_eq_div_pow]
  omega

/-- A word is its five fields (R81). -/
theorem packWord_fields (w : CmdWord) :
    packWord (opField w) (voiceField w) (unitField w) (auxField w) (dataField w) = w := by
  apply BitVec.eq_of_toNat_eq
  have h := w.isLt
  simp only [packWord_toNat, opField, voiceField, unitField, auxField, dataField, BitVec.extractLsb'_toNat,
    Nat.shiftRight_eq_div_pow]
  omega

/-- `decode` of a packed word, by its fields. -/
theorem decode_packWord (op voice unit aux : Byte) (data : Word) :
    decode (packWord op voice unit aux data) =
      match instrOf op voice unit aux data with
      | none => .illegalOpcode op
      | some i => if reservedZero (formatOf i) voice unit aux data then .instr i
                  else .reservedField (errRsvd ||| operandErr i) := by
  cases h : instrOf op voice unit aux data <;>
    simp only [decode, opField_packWord, voiceField_packWord, unitField_packWord, auxField_packWord, dataField_packWord, h]

theorem voiceErr_eq_zero (voice : Byte) : voiceErr voice = 0 ↔ voiceOk voice = true := by
  unfold voiceErr voiceOk
  split <;> simp_all [errVoice]

theorem voiceReadErr_eq_zero (voice : Byte) : voiceReadErr voice = 0 ↔ voiceReadOk voice = true := by
  unfold voiceReadErr voiceReadOk
  split <;> simp_all [errVoice]

theorem oscUnitErr_eq_zero (unit : Byte) : oscUnitErr unit = 0 ↔ oscUnitOk unit = true := by
  unfold oscUnitErr oscUnitOk
  split <;> simp_all [errUnit]

theorem envUnitErr_eq_zero (unit : Byte) : envUnitErr unit = 0 ↔ envUnitOk unit = true := by
  unfold envUnitErr envUnitOk
  split <;> simp_all [errUnit]

theorem modUnitErr_eq_zero (unit : Byte) : modUnitErr unit = 0 ↔ modUnitOk unit = true := by
  unfold modUnitErr modUnitOk
  split <;> simp_all [errUnit]

theorem or_eq_zero (a b : ErrBits) : a ||| b = 0 ↔ a = 0 ∧ b = 0 := by
  revert a b
  decide

/-- A command has no cause bit exactly when it is well-formed (R91). -/
theorem operandErr_eq_zero (i : Instr) : operandErr i = 0 ↔ WellFormed i = true := by
  cases i <;>
    simp only [operandErr, WellFormed, or_eq_zero, Bool.and_eq_true, voiceErr_eq_zero, voiceReadErr_eq_zero,
      oscUnitErr_eq_zero, envUnitErr_eq_zero, modUnitErr_eq_zero]

end Sys2Proof
end

