-- ==== Sys2Proof/Laws/Envelope.lean ====
section
/-! SUPPORT. What `set_volume` and `adjust` can do, said once (spec/41_envelope.md R150, R155). -/

namespace Sys2Proof.Machine

/-- `set_volume` with a level above 0 is a trigger (R150, R151). -/
theorem setVolume_trigger (p : Params) (e : Envelope) (level : Byte) (h : 0 < level.toNat) :
    e.setVolume p level = e.trigger p level := if_pos h

/-- `set_volume(E, 0)` outside repeat mode is a note-off (R152). -/
theorem setVolume_noteOff (p : Params) (e : Envelope) (level : Byte) (h : level.toNat = 0) (hr : e.rpt = false) :
    e.setVolume p level = e.noteOff := by
  simp [Envelope.setVolume, h, hr]

/-- `set_volume(E, 0)` in repeat mode is nothing (R153). -/
theorem setVolume_repeat (p : Params) (e : Envelope) (level : Byte) (h : level.toNat = 0) (hr : e.rpt = true) :
    e.setVolume p level = e := by
  simp [Envelope.setVolume, h, hr]

/-- The registers a trigger writes hold exactly what R150 computes. -/
theorem trigger_values (p : Params) (e : Envelope) (level : Byte) :
    (e.trigger p level).tgt.toNat = target p level ∧
    (e.trigger p level).slv.toNat = target p level * e.sus.toNat / 255 ∧
    (e.trigger p level).rampStep.toNat = stepSize (target p level * 2 ^ 16) e.rlA.toNat := by
  have h1 := target_le p level
  have h2 := p.envPeak_le
  have h3 := fraction_le (target p level) e.sus
  have h4 := stepSize_le (target p level * 2 ^ 16) e.rlA.toNat
  refine ⟨?_, ?_, ?_⟩
  · simp only [Envelope.trigger, BitVec.toNat_ofNat]
    omega
  · simp only [Envelope.trigger, BitVec.toNat_ofNat]
    omega
  · simp only [Envelope.trigger, BitVec.toNat_ofNat]
    omega

/-- The ramp step a note-off writes is exactly what R150 computes. -/
theorem noteOff_rampStep (e : Envelope) : e.noteOff.rampStep.toNat = stepSize e.vol.toNat e.cntR.toNat := by
  have h1 := stepSize_le e.vol.toNat e.cntR.toNat
  have h2 := e.vol.isLt
  simp only [Envelope.noteOff, BitVec.toNat_ofNat]
  omega

theorem attackGoal_lt (e : Envelope) : e.attackGoal < 2 ^ 32 := by
  have := e.tgt.isLt
  unfold Envelope.attackGoal
  omega

theorem decayGoal_lt (e : Envelope) : e.decayGoal < 2 ^ 32 := by
  have := e.slv.isLt
  unfold Envelope.decayGoal
  omega

/-- A volume moved toward a 32-bit goal fits its register. -/
theorem toward_fits (v : Word) (g s : Nat) (hg : g < 2 ^ 32) :
    (BitVec.ofNat 32 (toward v.toNat g s)).toNat = toward v.toNat g s := by
  have h1 := toward_le_max v.toNat g s
  have h2 := v.isLt
  simp only [BitVec.toNat_ofNat]
  omega

/-- A step computed from a 32-bit distance fits its register. -/
theorem stepSize_fits (dist n : Nat) (hd : dist < 2 ^ 32) :
    (BitVec.ofNat 32 (stepSize dist n)).toNat = stepSize dist n := by
  have h1 := stepSize_le dist n
  simp only [BitVec.toNat_ofNat]
  omega

/-- One sample of `ATTACK`: the volume and the count, then the two ways it ends (R155). -/
theorem adjustAttack_cases (e : Envelope) :
    e.adjustAttack.vol.toNat = toward e.vol.toNat e.attackGoal e.rampStep.toNat ∧
    e.adjustAttack.cntA.toNat = e.cntA.toNat - 1 ∧
    (if e.cntA.toNat - 1 = 0 ∧ toward e.vol.toNat e.attackGoal e.rampStep.toNat = e.attackGoal then
      e.adjustAttack.st = .decay ∧
      e.adjustAttack.rampStep.toNat = stepSize (e.attackGoal - e.decayGoal) e.cntD.toNat
    else e.adjustAttack.st = e.st ∧ e.adjustAttack.rampStep = e.rampStep) ∧
    e.adjustAttack = { e with
      st := e.adjustAttack.st, vol := e.adjustAttack.vol, rampStep := e.adjustAttack.rampStep,
      cntA := e.adjustAttack.cntA } := by
  have hf := toward_fits e.vol e.attackGoal e.rampStep.toNat (attackGoal_lt e)
  have hg := attackGoal_lt e
  have hs := stepSize_fits (e.attackGoal - e.decayGoal) e.cntD.toNat (by omega)
  simp only [Envelope.adjustAttack, countDown_toNat]
  split
  · rename_i h
    rw [h.2] at hf ⊢
    exact ⟨hf, countDown_toNat _, ⟨rfl, hs⟩, rfl⟩
  · exact ⟨hf, countDown_toNat _, ⟨rfl, rfl⟩, rfl⟩

/-- One sample of `DECAY` (R155). -/
theorem adjustDecay_cases (e : Envelope) :
    e.adjustDecay.vol.toNat = toward e.vol.toNat e.decayGoal e.rampStep.toNat ∧
    e.adjustDecay.cntD.toNat = e.cntD.toNat - 1 ∧
    (if e.cntD.toNat - 1 = 0 ∧ toward e.vol.toNat e.decayGoal e.rampStep.toNat = e.decayGoal then
      e.adjustDecay.st = .sustain
    else e.adjustDecay.st = e.st) ∧
    e.adjustDecay = { e with st := e.adjustDecay.st, vol := e.adjustDecay.vol, cntD := e.adjustDecay.cntD } := by
  have hf := toward_fits e.vol e.decayGoal e.rampStep.toNat (decayGoal_lt e)
  simp only [Envelope.adjustDecay, countDown_toNat]
  split
  · exact ⟨hf, countDown_toNat _, rfl, rfl⟩
  · exact ⟨hf, countDown_toNat _, rfl, rfl⟩

/-- One sample of `SUSTAIN` (R155, R157). -/
theorem adjustSustain_cases (e : Envelope) (en : Bool) :
    (if en = false ∨ e.rpt = true then
      (e.adjustSustain en).st = .release ∧
      (e.adjustSustain en).rampStep.toNat = stepSize e.vol.toNat e.cntR.toNat
    else e.adjustSustain en = e) ∧
    e.adjustSustain en = { e with st := (e.adjustSustain en).st, rampStep := (e.adjustSustain en).rampStep } := by
  have hs := stepSize_fits e.vol.toNat e.cntR.toNat e.vol.isLt
  unfold Envelope.adjustSustain
  split
  · exact ⟨⟨rfl, hs⟩, rfl⟩
  · exact ⟨rfl, rfl⟩

/-- The registers that one sample of `RELEASE` moves, before its end is tested. -/
def Envelope.releaseMoved (e : Envelope) : Envelope :=
  { e with vol := BitVec.ofNat 32 (toward e.vol.toNat 0 e.rampStep.toNat), cntR := countDown e.cntR }

/-- One sample of `RELEASE` (R155): it goes on, it ends in `WAITING` with `true`, or it restarts (R158). -/
theorem adjustRelease_cases (p : Params) (e : Envelope) :
    e.releaseMoved.vol.toNat = toward e.vol.toNat 0 e.rampStep.toNat ∧
    e.releaseMoved.cntR.toNat = e.cntR.toNat - 1 ∧
    (if e.cntR.toNat - 1 = 0 ∧ toward e.vol.toNat 0 e.rampStep.toNat = 0 then
      if e.rpt = true then e.adjustRelease p = (e.releaseMoved.trigger p 255, false)
      else e.adjustRelease p = ({ e.releaseMoved with st := .waiting }, true)
    else e.adjustRelease p = (e.releaseMoved, false)) := by
  have hf := toward_fits e.vol 0 e.rampStep.toNat (by omega)
  refine ⟨hf, countDown_toNat _, ?_⟩
  unfold Envelope.adjustRelease
  simp only [countDown_toNat]
  split
  · split
    · rw [setVolume_trigger p _ 255 (by decide)]
      rfl
    · rfl
  · rfl

/-- `adjust` by the stage (R155). -/
theorem adjust_cases (p : Params) (e : Envelope) (en : Bool) :
    (e.st = .waiting ∧ e.adjust p en = (e, false)) ∨
    (e.st = .attack ∧ e.adjust p en = (e.adjustAttack, false)) ∨
    (e.st = .decay ∧ e.adjust p en = (e.adjustDecay, false)) ∨
    (e.st = .sustain ∧ e.adjust p en = (e.adjustSustain en, false)) ∨
    (e.st = .release ∧ e.adjust p en = e.adjustRelease p) := by
  unfold Envelope.adjust
  cases h : e.st <;> simp

end Sys2Proof.Machine
end

