-- ==== Sys2Proof/Laws/Voices.lean ====
section
/-! SUPPORT. The voice file: what the voice-by-voice operations leave in each slot. -/

namespace Sys2Proof.Machine

theorem mapFrom_getElem (f : Nat → Voice → Voice) (j : Nat) (xs : List Voice) (k : Nat) (h : k < xs.length)
    (h' : k < (mapFrom f j xs).length) : (mapFrom f j xs)[k] = f (j + k) xs[k] := by
  induction xs generalizing j k with
  | nil => simp at h
  | cons x xs ih =>
    cases k with
    | zero => rfl
    | succ k =>
      have := ih (j + 1) k (by simpa using h) (by simpa [mapFrom_length] using h)
      simpa [mapFrom, Nat.add_comm, Nat.add_left_comm, Nat.add_assoc] using this

/-- Slot `k` after `mapVoices f` is `f k` of slot `k` before. -/
@[simp] theorem mapVoices_getElem (f : Nat → Voice → Voice) (voices : Vector Voice 128) (k : Nat) (h : k < 128) :
    (mapVoices f voices)[k] = f k voices[k] := by
  have hk : k < voices.toArray.toList.length := by simpa using h
  have := mapFrom_getElem f 0 voices.toArray.toList k hk (by simpa [mapFrom_length] using h)
  simpa [mapVoices] using this

/-- Slot `k` after `onTargets voice f`: changed if the operand names it, else as before (R87). -/
@[simp] theorem onTargets_getElem (voice : Byte) (f : Voice → Voice) (voices : Vector Voice 128) (k : Nat) (h : k < 128) :
    (onTargets voice f voices)[k] = if voice.toNat = k ∨ voice.toNat = 255 then f voices[k] else voices[k] := by
  simp [onTargets, isTarget]

theorem replicate_slot (n k : Nat) (h : k < n) (x : Voice) :
    (Vector.mk ⟨List.replicate n x⟩ List.length_replicate)[k]'h = x := by
  simp

/-- Every slot of the voice file after reset (R32). -/
@[simp] theorem resetVoices_getElem (k : Nat) (h : k < 128) : resetVoices[k] = Voice.reset :=
  replicate_slot 128 k h Voice.reset

/-- The voice a read in range names. -/
theorem State.voiceAt_eq (s : State) (voice : Byte) (h : voice.toNat < 128) :
    s.voiceAt voice = s.voices[voice.toNat] := by
  simp [State.voiceAt, h]

theorem vector_sum {n : Nat} (f : Voice → Int) (v : Vector Voice n) :
    (v.toArray.toList.map f).sum = ∑ k : Fin n, f v[k.val] := by
  have h : v.toArray.toList.map f = List.ofFn (fun k : Fin n => f v[k.val]) := by
    apply List.ext_getElem
    · simp
    · intro i h1 h2
      simp
  rw [h, List.sum_ofFn]

/-- `mix_out`'s sum as a sum over the slots (R231). -/
theorem State.mixSum_eq (s : State) : s.mixSum = ∑ k : Fin 128, (s.voices[k.val]).contribution :=
  vector_sum _ _

end Sys2Proof.Machine
end

