-- ==== Sys2Proof/Laws/Exec.lean ====
section
/-! SUPPORT. What a command can do, said once: the commands with a voice operand that write all do one thing, they change each
voice the operand names by one function, or are rejected; the others write what their one line says. -/

namespace Sys2Proof.Machine

/-- For a command that writes voices: its voice operand and what it does to each voice it names (R87). -/
def voiceWrite (p : Params) : Instr → Option (Byte × (Voice → Voice))
  | .nop => none
  | .reset => none
  | .peek => none
  | .advance => none
  | .pull => none
  | .rdstat _ => none
  | .rderr => none
  | .master _ => none
  | .oscwave voice unit data => some (voice, onOscillator unit fun o => { o with wave := clampWaveform data })
  | .oscduty voice unit data => some (voice, onOscillator unit fun o => { o with duty := clampByte data 255 })
  | .lfoinc voice data => some (voice, fun x => { x with lfo := { x.lfo with inc := data } })
  | .vfreq voice data => some (voice, fun x => x.setFreq data)
  | .envvol voice unit data => some (voice, onEnvelope unit fun e => e.setVolume p (clampByte data 255))
  | .envatk voice unit data => some (voice, onEnvelope unit fun e => { e with rlA := data })
  | .envdec voice unit data => some (voice, onEnvelope unit fun e => { e with rlD := data })
  | .envsus voice unit data => some (voice, onEnvelope unit fun e => { e with sus := clampByte data 255 })
  | .envrel voice unit data => some (voice, onEnvelope unit fun e => { e with rlR := data })
  | .envgain voice unit data => some (voice, onEnvelope unit fun e => { e with gain := clampByte data 128 })
  | .envrpt voice unit data => some (voice, onEnvelope unit fun e => { e with rpt := flagOf data })
  | .modratio voice unit aux data => some (voice, fun x =>
      onModulator unit
        (fun m => Modulator.refresh { m with ratio := clampByte data 255, ratioDiv := clampDivisor aux } x.c1.inc) x)
  | .modamt voice unit aux data =>
      some (voice, onModulator unit fun m => { m with amount := clampByte data 255, amountDiv := clampDivisor aux })
  | .vbal voice data => some (voice, fun x => { x with bal := clampByte data 128 })
  | .vibdepth voice data => some (voice, fun x => { x with vibdepth := clampHalf data })
  | .ven voice data => some (voice, fun x => { x with en := flagOf data })
  | .noteon voice aux data => some (voice, fun x => x.strike p aux data)

/-- A command that writes voices does what `voiceWrite` says of it, or is rejected (R91). -/
theorem exec_voiceWrite (i : Instr) (s : State) (voice : Byte) (f : Voice → Voice)
    (h : voiceWrite s.params i = some (voice, f)) :
    exec i s = accepted (operandErr i) s (s.onVoices voice f) := by
  cases i <;> simp only [voiceWrite, Option.some.injEq, Prod.mk.injEq, reduceCtorEq] at h <;>
    (obtain ⟨rfl, rfl⟩ := h; rfl)

/-- Everything a command can do to the state. -/
theorem exec_cases (i : Instr) (s t : State) (h : exec i s = .next t) :
    (∃ bits, bits ≠ 0 ∧ bits = operandErr i ∧ t = s.reject bits) ∨
    (∃ voice f, voiceWrite s.params i = some (voice, f) ∧ operandErr i = 0 ∧ t = s.onVoices voice f) ∨
    (i = .nop ∧ t = s) ∨ (i = .reset ∧ t = s.resetElements) ∨ (i = .peek ∧ t = s.respond s.sampleWord) ∨
    (i = .advance ∧ t = s.tick) ∨ (i = .pull ∧ t = s.tick.respond s.sampleWord) ∨
    (∃ voice, i = .rdstat voice ∧ voiceReadErr voice = 0 ∧ t = s.respond (statusWord (s.voiceAt voice))) ∨
    (i = .rderr ∧ t = s.respond (errWord s.err)) ∨
    (∃ data, i = .master data ∧ t = { s with master := clampByte data 128 }) := by
  cases hw : voiceWrite s.params i with
  | some vf =>
    rw [exec_voiceWrite i s vf.1 vf.2 hw] at h
    rcases accepted_cases _ _ _ _ h with ⟨h0, rfl⟩ | ⟨h0, rfl⟩
    · exact .inr (.inl ⟨vf.1, vf.2, rfl, h0, rfl⟩)
    · exact .inl ⟨_, h0, rfl, rfl⟩
  | none =>
    cases i <;> simp only [voiceWrite, reduceCtorEq] at hw
    case rdstat voice =>
      rcases accepted_cases _ _ _ _ h with ⟨h0, rfl⟩ | ⟨h0, rfl⟩
      · simp [h0]
      · exact .inl ⟨_, h0, rfl, rfl⟩
    all_goals
      injection h with h
      subst h
      simp [operandErr]

/-- A command keeps the parameter and takes nothing from the port (R281). -/
theorem exec_frame (i : Instr) (s t : State) (h : exec i s = .next t) :
    t.params = s.params ∧ t.inputs = s.inputs ∧ t.resetLine = s.resetLine := by
  rcases exec_cases i s t h with ⟨_, _, _, rfl⟩ | ⟨_, _, _, _, rfl⟩ | ⟨_, rfl⟩ | ⟨_, rfl⟩ | ⟨_, rfl⟩ | ⟨_, rfl⟩ |
    ⟨_, rfl⟩ | ⟨_, _, _, rfl⟩ | ⟨_, rfl⟩ | ⟨_, _, rfl⟩ <;> exact ⟨rfl, rfl, rfl⟩

end Sys2Proof.Machine
end

