-- ==== Sys2Proof/Laws/PerInstr.lean ====
section
/-! SUPPORT. Facts about commands as syntax, one lemma per constructor: the word of a command carries its opcode and fits its
format. -/

namespace Sys2Proof

/-- The opcode of each command (R90). -/
def opcodeOf : Instr → Nat
  | .nop => 0x00
  | .reset => 0x01
  | .peek => 0x02
  | .advance => 0x03
  | .pull => 0x04
  | .rdstat _ => 0x05
  | .rderr => 0x06
  | .master _ => 0x07
  | .oscwave _ _ _ => 0x10
  | .oscduty _ _ _ => 0x11
  | .lfoinc _ _ => 0x12
  | .vfreq _ _ => 0x13
  | .envvol _ _ _ => 0x20
  | .envatk _ _ _ => 0x21
  | .envdec _ _ _ => 0x22
  | .envsus _ _ _ => 0x23
  | .envrel _ _ _ => 0x24
  | .envgain _ _ _ => 0x25
  | .envrpt _ _ _ => 0x26
  | .modratio _ _ _ _ => 0x30
  | .modamt _ _ _ _ => 0x31
  | .vbal _ _ => 0x40
  | .vibdepth _ _ => 0x41
  | .ven _ _ => 0x42
  | .noteon _ _ _ => 0x43

/-- The word of the command has the command's opcode, and every field its format does not use is zero (R82, R90). -/
def Laws.FitsFormat.Statement (i : Instr) : Prop :=
  (opField (encode i)).toNat = opcodeOf i ∧
  reservedZero (formatOf i) (voiceField (encode i)) (unitField (encode i)) (auxField (encode i)) (dataField (encode i)) = true

namespace Laws.FitsFormat

theorem nop : Statement .nop := by
  simp [Statement, encode, formatOf, reservedZero, opcodeOf]

theorem reset : Statement .reset := by
  simp [Statement, encode, formatOf, reservedZero, opcodeOf]

theorem peek : Statement .peek := by
  simp [Statement, encode, formatOf, reservedZero, opcodeOf]

theorem advance : Statement .advance := by
  simp [Statement, encode, formatOf, reservedZero, opcodeOf]

theorem pull : Statement .pull := by
  simp [Statement, encode, formatOf, reservedZero, opcodeOf]

theorem rdstat (voice : Byte) : Statement (.rdstat voice) := by
  simp [Statement, encode, formatOf, reservedZero, opcodeOf]

theorem rderr : Statement .rderr := by
  simp [Statement, encode, formatOf, reservedZero, opcodeOf]

theorem master (data : Word) : Statement (.master data) := by
  simp [Statement, encode, formatOf, reservedZero, opcodeOf]

theorem oscwave (voice : Byte) (unit : Byte) (data : Word) : Statement (.oscwave voice unit data) := by
  simp [Statement, encode, formatOf, reservedZero, opcodeOf]

theorem oscduty (voice : Byte) (unit : Byte) (data : Word) : Statement (.oscduty voice unit data) := by
  simp [Statement, encode, formatOf, reservedZero, opcodeOf]

theorem lfoinc (voice : Byte) (data : Word) : Statement (.lfoinc voice data) := by
  simp [Statement, encode, formatOf, reservedZero, opcodeOf]

theorem vfreq (voice : Byte) (data : Word) : Statement (.vfreq voice data) := by
  simp [Statement, encode, formatOf, reservedZero, opcodeOf]

theorem envvol (voice : Byte) (unit : Byte) (data : Word) : Statement (.envvol voice unit data) := by
  simp [Statement, encode, formatOf, reservedZero, opcodeOf]

theorem envatk (voice : Byte) (unit : Byte) (data : Word) : Statement (.envatk voice unit data) := by
  simp [Statement, encode, formatOf, reservedZero, opcodeOf]

theorem envdec (voice : Byte) (unit : Byte) (data : Word) : Statement (.envdec voice unit data) := by
  simp [Statement, encode, formatOf, reservedZero, opcodeOf]

theorem envsus (voice : Byte) (unit : Byte) (data : Word) : Statement (.envsus voice unit data) := by
  simp [Statement, encode, formatOf, reservedZero, opcodeOf]

theorem envrel (voice : Byte) (unit : Byte) (data : Word) : Statement (.envrel voice unit data) := by
  simp [Statement, encode, formatOf, reservedZero, opcodeOf]

theorem envgain (voice : Byte) (unit : Byte) (data : Word) : Statement (.envgain voice unit data) := by
  simp [Statement, encode, formatOf, reservedZero, opcodeOf]

theorem envrpt (voice : Byte) (unit : Byte) (data : Word) : Statement (.envrpt voice unit data) := by
  simp [Statement, encode, formatOf, reservedZero, opcodeOf]

theorem modratio (voice : Byte) (unit : Byte) (aux : Byte) (data : Word) : Statement (.modratio voice unit aux data) := by
  simp [Statement, encode, formatOf, reservedZero, opcodeOf]

theorem modamt (voice : Byte) (unit : Byte) (aux : Byte) (data : Word) : Statement (.modamt voice unit aux data) := by
  simp [Statement, encode, formatOf, reservedZero, opcodeOf]

theorem vbal (voice : Byte) (data : Word) : Statement (.vbal voice data) := by
  simp [Statement, encode, formatOf, reservedZero, opcodeOf]

theorem vibdepth (voice : Byte) (data : Word) : Statement (.vibdepth voice data) := by
  simp [Statement, encode, formatOf, reservedZero, opcodeOf]

theorem ven (voice : Byte) (data : Word) : Statement (.ven voice data) := by
  simp [Statement, encode, formatOf, reservedZero, opcodeOf]

theorem noteon (voice : Byte) (aux : Byte) (data : Word) : Statement (.noteon voice aux data) := by
  simp [Statement, encode, formatOf, reservedZero, opcodeOf]

end Laws.FitsFormat

end Sys2Proof
end

