-- ==== Sys2Proof/Laws/Step.lean ====
section
/-! SUPPORT. What a step can do, said once (spec/20_memory.md R66, spec/70_reset_and_hazards.md R280, R282). -/

namespace Sys2Proof.Machine

/-- Everything a step can do: nothing waits; the reset input changes; a word is lost in reset; a word is executed; a word is
rejected. -/
theorem step_cases (s t : State) (h : step s = .next t) :
    (s.inputs = [] ∧ t = s) ∨
    (∃ level rest, s.inputs = .resetLine level :: rest ∧ t = { s with inputs := rest }.driveReset level) ∨
    (∃ w rest, s.inputs = .command w :: rest ∧ s.resetLine = true ∧ t = { s with inputs := rest }) ∨
    (∃ w rest i, s.inputs = .command w :: rest ∧ s.resetLine = false ∧ decode w = .instr i ∧
      exec i { s with inputs := rest } = .next t) ∨
    (∃ w rest bits, s.inputs = .command w :: rest ∧ s.resetLine = false ∧ (∀ i, decode w ≠ .instr i) ∧
      t = { s with inputs := rest }.reject bits) := by
  unfold step stepPort at h
  split at h
  · rename_i hi
    injection h with h
    exact .inl ⟨hi, h.symm⟩
  · rename_i level rest hi
    injection h with h
    exact .inr (.inl ⟨level, rest, hi, h.symm⟩)
  · rename_i w rest hi
    split at h
    · rename_i hr
      injection h with h
      exact .inr (.inr (.inl ⟨w, rest, hi, hr, h.symm⟩))
    · rename_i hr
      have hr' : s.resetLine = false := by simpa using hr
      unfold execWord at h
      split at h
      · rename_i i hd
        exact .inr (.inr (.inr (.inl ⟨w, rest, i, hi, hr', hd, h⟩)))
      · rename_i op hd
        injection h with h
        exact .inr (.inr (.inr (.inr ⟨w, rest, errOp, hi, hr', fun i => by simp [hd], h.symm⟩)))
      · rename_i bits hd
        injection h with h
        exact .inr (.inr (.inr (.inr ⟨w, rest, bits, hi, hr', fun i => by simp [hd], h.symm⟩)))

/-- A new level of the reset input either resets every element or is no event (R280). -/
theorem driveReset_cases (s : State) (level : Bool) :
    (level = true ∨ s.resetLine = true) ∧ s.driveReset level = { s.resetElements with resetLine := level } ∨
    level = false ∧ s.resetLine = false ∧ s.driveReset level = s := by
  unfold State.driveReset
  split
  · rename_i h
    exact .inl ⟨h, rfl⟩
  · rename_i h
    exact .inr ⟨by simpa using (not_or.mp h).1, by simpa using (not_or.mp h).2, rfl⟩

end Sys2Proof.Machine
end

