-- ==== Sys2Proof/Laws/Units.lean ====
section
/-! SUPPORT. What the shared operations on one voice can do, said once: the unit operands (spec/20_memory.md R60), the phase step
(spec/40_oscillator.md R111) and the refresh of a modulator (spec/42_modulator_scaler.md R187). -/

namespace Sys2Proof.Machine

/-- Everything `onOscillator` can do: one of the five oscillators is changed, or the unit names none. -/
theorem onOscillator_cases (unit : Byte) (f : Oscillator → Oscillator) (x : Voice) :
    (unit.toNat = 0 ∧ onOscillator unit f x = { x with c1 := f x.c1 }) ∨
    (unit.toNat = 1 ∧ onOscillator unit f x = { x with c2 := f x.c2 }) ∨
    (unit.toNat = 2 ∧ onOscillator unit f x = { x with lfo := f x.lfo }) ∨
    (unit.toNat = 3 ∧ onOscillator unit f x = { x with m1 := { x.m1 with osc := f x.m1.osc } }) ∨
    (unit.toNat = 4 ∧ onOscillator unit f x = { x with m2 := { x.m2 with osc := f x.m2.osc } }) ∨
    (4 < unit.toNat ∧ onOscillator unit f x = x) := by
  unfold onOscillator
  split <;> simp_all
  omega

/-- Everything `onEnvelope` can do. -/
theorem onEnvelope_cases (unit : Byte) (f : Envelope → Envelope) (x : Voice) :
    (unit.toNat = 0 ∧ onEnvelope unit f x = { x with amp := f x.amp }) ∨
    (unit.toNat = 1 ∧ onEnvelope unit f x = { x with e1 := f x.e1 }) ∨
    (unit.toNat = 2 ∧ onEnvelope unit f x = { x with e2 := f x.e2 }) ∨
    (2 < unit.toNat ∧ onEnvelope unit f x = x) := by
  unfold onEnvelope
  split <;> simp_all
  omega

/-- Everything `onModulator` can do. -/
theorem onModulator_cases (unit : Byte) (f : Modulator → Modulator) (x : Voice) :
    (unit.toNat = 1 ∧ onModulator unit f x = { x with m1 := f x.m1 }) ∨
    (unit.toNat = 2 ∧ onModulator unit f x = { x with m2 := f x.m2 }) ∨
    (unit.toNat ≠ 1 ∧ unit.toNat ≠ 2 ∧ onModulator unit f x = x) := by
  unfold onModulator
  split <;> simp_all

/-- The pattern of a signed value, as a number (R11). -/
theorem wordOfInt_toNat (z : Int) : ((wordOfInt z).toNat : Int) = z % 2 ^ 32 := by
  rw [wordOfInt, BitVec.toNat_ofInt, Int.toNat_of_nonneg (Int.emod_nonneg _ (by norm_num))]
  norm_num

/-- A signed value that fits 32 bits is what its pattern stands for (R28). -/
theorem wordOfInt_toInt (z : Int) (h1 : -2147483648 ≤ z) (h2 : z ≤ 2147483647) : (wordOfInt z).toInt = z := by
  unfold wordOfInt
  rw [BitVec.toInt_ofInt, Int.bmod_eq_of_le] <;> norm_num <;> omega

/-- The phase after a step (R111). -/
theorem phaseStep_toNat (o : Oscillator) (extra : Int) :
    ((o.phaseStep extra).phase.toNat : Int) = ((o.phase.toNat : Int) + (o.inc.toNat : Int) + extra) % 2 ^ 32 :=
  wordOfInt_toNat _

/-- The increment of a refreshed modulator (R187). -/
theorem scaledInc_toNat (m : Modulator) (inc : Word) :
    (m.scaledInc inc).toNat = inc.toNat * m.ratioQ / 2 ^ 8 % 2 ^ 32 := by
  simp [Modulator.scaledInc]

end Sys2Proof.Machine
end

