-- ==== Sys2Proof/Laws/Word.lean ====
section
/-! SUPPORT. What a delivered word does, from its fields: it is executed when no cause bit is found, else rejected with all of
them (spec/30_encoding.md R91). -/

namespace Sys2Proof.Machine

/-- The cause bits of a word with an assigned opcode: those of the command's operands and of its unused fields. -/
def causeBits (i : Instr) (voice unit aux : Byte) (data : Word) : ErrBits :=
  operandErr i ||| if reservedZero (formatOf i) voice unit aux data then 0 else errRsvd

theorem or_no_bits (b : ErrBits) : b ||| 0 = b := by
  revert b
  decide

/-- A command with a cause bit in its operands is rejected by its own meaning (R91). -/
theorem exec_of_operandErr (i : Instr) (s : State) (h : operandErr i ≠ 0) :
    exec i s = .next (s.reject (operandErr i)) := by
  cases i <;> first | exact absurd rfl h | exact accepted_of_ne _ _ _ h

/-- Every word with an assigned opcode: executed or rejected with all its cause bits (R91). -/
theorem execWord_packWord (op voice unit aux : Byte) (data : Word) (i : Instr) (s : State)
    (h : instrOf op voice unit aux data = some i) :
    execWord (packWord op voice unit aux data) s =
      if causeBits i voice unit aux data = 0 then exec i s
      else .next (s.reject (causeBits i voice unit aux data)) := by
  have hd := decode_packWord op voice unit aux data
  simp only [h] at hd
  unfold execWord causeBits
  rw [hd]
  by_cases hz : reservedZero (formatOf i) voice unit aux data = true
  · simp only [hz, if_true, or_no_bits]
    split
    · rfl
    · exact exec_of_operandErr i s (by assumption)
  · simp only [hz, if_false, Bool.false_eq_true]
    rw [if_neg, BitVec.or_comm]
    rw [or_eq_zero]
    exact fun h => absurd h.2 (by decide)

/-- A word whose opcode is not assigned (R92). -/
theorem execWord_illegal (op voice unit aux : Byte) (data : Word) (s : State)
    (h : instrOf op voice unit aux data = none) :
    execWord (packWord op voice unit aux data) s = .next (s.reject errOp) := by
  have hd := decode_packWord op voice unit aux data
  simp only [h] at hd
  unfold execWord
  rw [hd]

end Sys2Proof.Machine
end

