-- ==== Sys2Proof/Tests/Slice0.lean ====
section
/-! SUPPORT. Tests: ill-formed operands, words written out from the fields of spec/30_encoding.md R81 and R90, single vectors
of spec/95_test_vectors.md (its section is named at each), and for every statement with hypotheses a case that meets them. -/

namespace Sys2Proof.Tests

set_option Elab.async false

open Sys2Proof.Machine Sys2Proof.Claims

/-! ### Small states -/

/-- `MAX_POLYPHONY` 16, so `ENV_PEAK` 4095: the value the spec's vectors use. -/
def p16 : Params := ⟨16, by decide, by decide⟩

/-- The state after reset of an instance with 16 voices of polyphony. -/
def quiet : State := { State.reset with params := p16 }

/-- The state after one command that answers a next state. -/
def after (i : Instr) (s : State) : State :=
  match exec i s with
  | .next t => t
  | .fault _ => s
  | .refused _ => s

/-- The state after one delivered word. -/
def afterWord (w : CmdWord) (s : State) : State :=
  match step (s.offer w) with
  | .next t => t
  | .fault _ => s
  | .refused _ => s

/-- `quiet` with voice 0 replaced. -/
def withVoice (x : Voice) : State := { quiet with voices := mapVoices (fun k y => if k = 0 then x else y) resetVoices }

/-- An envelope with lengths 4, 4, 4 and sustain 128 (spec/95_test_vectors.md 2.3), just triggered at 255. -/
def envAttack : Envelope :=
  { Envelope.reset with
    st := .attack, tgt := 4095, slv := 2055, rampStep := 0x03FFC000, cntA := 4, cntD := 4, cntR := 4,
    rlA := 4, rlD := 4, rlR := 4, sus := 128 }

/-- The same after call 4 of that table. -/
def envDecay : Envelope := { envAttack with st := .decay, vol := 0x0FFF0000, rampStep := 0x01FE0000, cntA := 0 }

/-- The same after call 8. -/
def envSustain : Envelope := { envDecay with st := .sustain, vol := 0x08070000, cntD := 0 }

/-- The same after `set_volume(E, 0)`. -/
def envRelease : Envelope := { envSustain with st := .release, tgt := 0, rampStep := 0x0201C000 }

/-- The same in repeat mode, on its last sample of release. -/
def envLast : Envelope := { envRelease with vol := 0x0201C000, cntR := 1 }

/-- Voice 0 of program B (spec/95_test_vectors.md 3) just after its `NOTEON`. -/
def voiceB : Voice :=
  { Voice.reset with
    c1 := ⟨0x04000000, 0, .sine, 128⟩, c2 := ⟨0x04000000, 0, .saw, 128⟩, lfo := ⟨0x10000000, 0, .tri, 128⟩
    m1 := ⟨⟨0x08000000, 0, .sine, 128⟩, 2, 1, 1, 2⟩, m2 := ⟨⟨0x06000000, 0, .sine, 128⟩, 3, 2, 1, 4⟩
    amp := Envelope.reset.setVolume p16 128
    e1 := Envelope.setVolume p16 { Envelope.reset with rlA := 2, rlD := 2, sus := 64 } 255
    e2 := Envelope.reset.setVolume p16 255
    bal := 64, vibdepth := 0x3200, en := true }

/-! ### Ill-formed operands are refused by `WellFormed` -/

theorem test_wellformed_voice : WellFormed (.vbal 127 0) = true ∧ WellFormed (.vbal 128 0) = false ∧
    WellFormed (.vbal 254 0) = false ∧ WellFormed (.vbal 255 0) = true := by decide

theorem test_wellformed_voice_read : WellFormed (.rdstat 127) = true ∧ WellFormed (.rdstat 128) = false ∧
    WellFormed (.rdstat 255) = false := by decide

theorem test_wellformed_osc_unit : WellFormed (.oscduty 0 4 0) = true ∧ WellFormed (.oscduty 0 5 0) = false := by decide

theorem test_wellformed_env_unit : WellFormed (.envsus 0 2 0) = true ∧ WellFormed (.envsus 0 3 0) = false := by decide

theorem test_wellformed_mod_unit : WellFormed (.modamt 0 0 1 0) = false ∧ WellFormed (.modamt 0 1 1 0) = true ∧
    WellFormed (.modamt 0 2 1 0) = true ∧ WellFormed (.modamt 0 3 1 0) = false := by decide

/-! ### Decode: one word for every command (spec/95_test_vectors.md 2.1) -/

theorem test_decode_system :
    decode 0x0000000000000000 = .instr .nop ∧ decode 0x0100000000000000 = .instr .reset ∧
    decode 0x0200000000000000 = .instr .peek ∧ decode 0x0300000000000000 = .instr .advance ∧
    decode 0x0400000000000000 = .instr .pull ∧ decode 0x053C000000000000 = .instr (.rdstat 60) ∧
    decode 0x0600000000000000 = .instr .rderr ∧ decode 0x0700000000000040 = .instr (.master 64) := by decide

theorem test_decode_oscillator :
    decode 0x103C010000000001 = .instr (.oscwave 60 1 1) ∧ decode 0x11FF000000000040 = .instr (.oscduty 255 0 64) ∧
    decode 0x123C000000083127 = .instr (.lfoinc 60 536871) ∧
    decode 0x133C0000016872B0 = .instr (.vfreq 60 0x016872B0) := by decide

theorem test_decode_envelope :
    decode 0x203C000000000000 = .instr (.envvol 60 0 0) ∧ decode 0x213C0000000012C0 = .instr (.envatk 60 0 4800) ∧
    decode 0x22FF000000000004 = .instr (.envdec 255 0 4) ∧ decode 0x2300010000000040 = .instr (.envsus 0 1 64) ∧
    decode 0x2401010000000002 = .instr (.envrel 1 1 2) ∧ decode 0x253C000000000040 = .instr (.envgain 60 0 64) ∧
    decode 0x2601010000000001 = .instr (.envrpt 1 1 1) := by decide

theorem test_decode_modulator :
    decode 0x30FF010200000007 = .instr (.modratio 255 1 2 7) ∧
    decode 0x3100020400000001 = .instr (.modamt 0 2 4 1) := by decide

theorem test_decode_voice :
    decode 0x4000000000000040 = .instr (.vbal 0 64) ∧ decode 0x4100000000003200 = .instr (.vibdepth 0 0x3200) ∧
    decode 0x4203000000000001 = .instr (.ven 3 1) ∧
    decode 0x433C00FF016872B0 = .instr (.noteon 60 255 0x016872B0) := by decide

/-- One word bit by bit (R81): `MODRATIO *, M1, 2, 7` is OP 00110000, VOICE 11111111, UNIT 00000001, AUX 00000010,
DATA 0...0111. -/
theorem test_decode_bits :
    decode 0b0011000011111111000000010000001000000000000000000000000000000111 = .instr (.modratio 255 1 2 7) := by
  decide

/-- The words of spec/95_test_vectors.md 2.1 that are rejected, and what they leave in `ERR`. -/
theorem test_rejected_words :
    ([0x0800000000000000, 0xFF00000000000000, 0x44FFFFFFFFFFFFFF, 0x1080000000000000, 0x05FF000000000000,
      0x1000050000000000, 0x2000030000000000, 0x3000000100000001, 0x3000030100000001, 0x0200000000000001,
      0x0401000000000000, 0x0700000100000040, 0x1200010000000000, 0x1000000100000000, 0x053C000000000001,
      0x10C8090100000001].map fun w => (afterWord w quiet).err) =
    [1, 1, 1, 2, 2, 4, 4, 4, 4, 8, 8, 8, 8, 8, 8, 14] := by decide +kernel

theorem test_table_word : decodeTableWord 64 0x433C00FF016872B0 = some (.noteon 60 255 0x016872B0) ∧
    decodeTableWord 64 0x0800000000000000 = none := by decide

/-- A placed word is what the next step runs. -/
theorem test_withFetchWord : step (quiet.withFetchWord 64 0x0700000000000040) = .next { quiet with master := 64 } := rfl

/-- Byte order of a transport (R62): `RDSTAT v60` and its opcode byte, last. -/
theorem test_transport : bytesOfWord 0x053C000000000001 = [1, 0, 0, 0, 0, 0, 0x3C, 5] ∧
    wordOfBytes [1, 0, 0, 0, 0, 0, 0x3C] = none := by decide

/-- The bytes of the response -18 (R62): all four, its sample's two, and that three bytes are no response. -/
theorem test_response_transport : responseBytes 0xFFFFFFEE = [0xEE, 0xFF, 0xFF, 0xFF] ∧
    responseOfBytes [1, 2, 3, 4] = some 0x04030201 ∧ sampleBytes 0x00010203 = [3, 2] ∧
    responseOfBytes [1, 2, 3] = none := by decide

/-- Pseudo-instructions (R96). -/
theorem test_pseudo : expand (.noteoff 60) = [.envvol 60 0 0] ∧ expand (.modon 5) = [.envvol 5 1 255, .envvol 5 2 255] ∧
    expand (.disable 5) = [.ven 5 0] := by decide

/-! ### System and sample commands (spec/95_test_vectors.md 2.6) -/

theorem test_nop : after .nop (withVoice voiceB) = withVoice voiceB := by decide +kernel

theorem test_reset : after .reset { withVoice voiceB with master := 3, err := 15 } = quiet := by decide +kernel

/-- `acc` 1131438 at `MASTER` 128 is 17; the negative of it is -18, floored. -/
theorem test_peek :
    (after .peek (withVoice { Voice.reset with en := true, vbuf := 1131438 })).responses = [17] ∧
    (after .peek (withVoice { Voice.reset with en := true, vbuf := -1131438 })).responses = [0xFFFFFFEE] := by
  decide +kernel

/-- A disabled voice contributes nothing (R231). -/
theorem test_peek_disabled : (after .peek (withVoice { Voice.reset with vbuf := 1131438 })).responses = [0] := by
  decide +kernel

/-- Program B, tick 1. -/
theorem test_advance : (after .advance (withVoice voiceB)).voices[0].vbuf.toInt = -2422845 ∧
    (after .advance (withVoice voiceB)).voices[0].c2.phase = 0x04000000 ∧
    (after .advance (withVoice voiceB)).responses = [] := by decide +kernel

theorem test_pull : (after .pull (withVoice voiceB)).responses = [0] ∧
    (after .pull (withVoice voiceB)).voices[0].vbuf.toInt = -2422845 := by decide +kernel

/-- `EN` 1, `AMP` 4, `E1` 1, `E2` 1 give 0x99. -/
theorem test_rdstat : (after (.rdstat 0) (withVoice
      { Voice.reset with en := true, amp := envRelease, e1 := envAttack, e2 := envAttack })).responses = [0x99] := by
  decide +kernel

theorem test_rderr : (after .rderr { quiet with err := 14 }).responses = [14] ∧
    (after .rderr { quiet with err := 14 }).err = 14 := by decide +kernel

theorem test_master : (after (.master 64) quiet).master = 64 ∧ (after (.master 0xFFFFFFFF) quiet).master = 128 := by
  decide +kernel

/-- `mix_out` of sums no 16 voices reach: saturation, and the exact -2^31 (spec/95_test_vectors.md 2.6). -/
theorem test_saturation : sat16 (asr (2147483648 * 128) 23) = 32767 ∧ sat16 (asr (-2147483648 * 128) 23) = -32768 ∧
    sat16 (asr (-2147549184 * 128) 23) = -32768 ∧ sat16 (asr (-1 * 128) 23) = -1 := by decide

/-! ### Oscillator (spec/95_test_vectors.md 2.2) -/

theorem test_oscwave : (after (.oscwave 60 1 1) quiet).voices[60].c2.wave = .saw ∧
    (after (.oscwave 60 1 1) quiet).voices[60].c1.wave = .sine ∧ (after (.oscwave 0 0 4) quiet).voices[0].c1.wave = .tri := by
  decide +kernel

theorem test_oscduty : (after (.oscduty 255 0 64) quiet).voices[127].c1.duty = 64 ∧
    (after (.oscduty 0 0 256) quiet).voices[0].c1.duty = 255 ∧ (after (.oscduty 0 0 256) quiet).voices[1].c1.duty = 128 := by
  decide +kernel

theorem test_lfoinc : (after (.lfoinc 60 536871) quiet).voices[60].lfo = ⟨0x00083127, 0, .sine, 128⟩ := by decide +kernel

theorem test_vfreq : (after (.vfreq 60 0x016872B0) quiet).voices[60].m2.osc.inc = 0x016872B0 ∧
    (after (.vfreq 60 0x016872B0) quiet).voices[60].c1.phase = 0 := by decide +kernel

/-- `set_freq` with a modulator ratio of 255: the product's bits above 32 are dropped. -/
theorem test_scaledInc : ({ Modulator.reset with ratio := 255 } : Modulator).scaledInc 0xFFFFFFFF = 0xFFFFFF01 ∧
    ({ Modulator.reset with ratio := 7, ratioDiv := 2 } : Modulator).scaledInc 0x016872B0 = 0x04ED9168 := by decide +kernel

theorem test_sine : sine 0x12345678 = 14101 ∧ sine 0x40000000 = 32767 ∧ sine 0x60000000 = 23099 ∧
    sine 0x80000000 = -101 ∧ sine 0xFFFFFFFF = -101 := by decide +kernel

theorem test_saw_square_tri : waveSample .saw 0 0 = -32767 ∧ waveSample .saw 0x12345678 0 = -28108 ∧
    waveSample .square 0x3FFFFFFF 64 = 32767 ∧ waveSample .square 0x40000000 64 = -32767 ∧
    waveSample .tri 0x40000000 0 = 32767 ∧ waveSample .tri 0xC0000000 0 = -32766 := by decide +kernel

theorem test_phaseStep : (Oscillator.phaseStep ⟨1, 0, .sine, 0⟩ (-1)).phase = 0 ∧
    (Oscillator.phaseStep ⟨0x04000000, 0x04000000, .sine, 0⟩ 484544).phase = 0x080764C0 ∧
    (Oscillator.phaseStep ⟨0x80000000, 0x80000000, .sine, 0⟩ 0).phase = 0 := by decide +kernel

/-- The check sum of the sine table (spec/40_oscillator.md R116). -/
theorem test_sine_table_sum : Config.sineTable.sum = 5340196 := by decide +kernel

/-! ### Envelope (spec/95_test_vectors.md 2.3) -/

/-- `RL_A` 2: a trigger at 128 from any stage (R151). -/
theorem test_envvol : (after (.envvol 0 0 128) (withVoice { Voice.reset with amp := { envDecay with rlA := 2 } })).voices[0].amp =
    { envAttack with tgt := 2055, slv := 1031, rampStep := 0x04038000, cntA := 2, rlA := 2 } := by decide +kernel

theorem test_envvol_zero : (after (.envvol 0 0 0) (withVoice { Voice.reset with amp := envSustain })).voices[0].amp = envRelease ∧
    (after (.envvol 0 0 0) (withVoice { Voice.reset with amp := { envSustain with rpt := true } })).voices[0].amp =
      { envSustain with rpt := true } := by decide +kernel

theorem test_envatk : (after (.envatk 0 0 4800) (withVoice { Voice.reset with amp := envAttack })).voices[0].amp =
    { envAttack with rlA := 4800 } := by decide +kernel

theorem test_envdec : (after (.envdec 255 1 4) quiet).voices[9].e1 = { Envelope.reset with rlD := 4 } := by decide +kernel

theorem test_envsus : (after (.envsus 0 0 300) (withVoice { Voice.reset with amp := envDecay })).voices[0].amp =
    { envDecay with sus := 255 } := by decide +kernel

theorem test_envrel : (after (.envrel 1 2 2) quiet).voices[1].e2 = { Envelope.reset with rlR := 2 } := by decide +kernel

theorem test_envgain : (after (.envgain 60 0 64) quiet).voices[60].amp.gain = 64 ∧
    (after (.envgain 60 0 129) quiet).voices[60].amp.gain = 128 := by decide +kernel

theorem test_envrpt : (after (.envrpt 1 1 0x80000000) quiet).voices[1].e1 = { Envelope.reset with rpt := true } := by
  decide +kernel

/-- Calls 4, 8, 9 of the table, and the last sample of a release. -/
theorem test_adjust : ({ envAttack with vol := 0x0BFF4000, cntA := 1 } : Envelope).adjust p16 true = (envDecay, false) ∧
    ({ envDecay with vol := 0x0A050000, cntD := 1 } : Envelope).adjust p16 true = (envSustain, false) ∧
    envSustain.adjust p16 true = (envSustain, false) ∧
    envLast.adjust p16 true = ({ envLast with st := .waiting, vol := 0, cntR := 0 }, true) := by decide +kernel

/-- The restart of repeat mode (R158): the last sample of release ends as a trigger at 255. -/
theorem test_restart : ({ envLast with rpt := true } : Envelope).adjust p16 false =
    ({ envAttack with rpt := true }, false) := by decide +kernel

theorem test_target : target p16 1 = 16 ∧ target p16 127 = 2039 ∧ target p16 255 = 4095 ∧
    target ⟨300, by decide, by decide⟩ 1 = 1 := by decide +kernel

theorem test_step_toward : stepSize 10 0 = 10 ∧ stepSize 10 3 = 4 ∧ stepSize 10 11 = 1 ∧ toward 9 10 3 = 10 ∧
    toward 2 0 3 = 0 ∧ toward 10 0 3 = 7 := by decide +kernel

theorem test_depth : ({ envDecay with gain := 127 } : Envelope).eff = 4063 ∧ ({ envDecay with gain := 127 } : Envelope).depth p16 = 65023 ∧
    envDecay.depth p16 = 65536 := by decide +kernel

/-! ### Modulators and scaler (spec/95_test_vectors.md 2.4) -/

theorem test_modratio : (after (.modratio 0 1 2 7) (withVoice (Voice.reset.setFreq 0x016872B0))).voices[0].m1 =
      ⟨⟨0x04ED9168, 0, .sine, 128⟩, 7, 2, 0, 1⟩ ∧
    (after (.modratio 0 1 0 300) quiet).voices[0].m1.ratioDiv = 1 ∧
    (after (.modratio 0 1 0 300) quiet).voices[0].m1.ratio = 255 := by decide +kernel

theorem test_modamt : (after (.modamt 0 2 4 1) quiet).voices[0].m2 = ⟨Oscillator.reset, 1, 1, 1, 4⟩ ∧
    (after (.modamt 0 1 0 0) quiet).voices[0].m1.amountDiv = 1 := by decide +kernel

theorem test_pmscale : pmscale 32767 65536 256 = 0xFFFE0000 ∧ pmscale (-32767) 65536 65280 = 0x01FE0000 ∧
    pmscale (-1) 1 1 = 0xFFFFFFFF ∧ pmscale 13736 32759 128 = 0x1AD21D18 := by decide +kernel

/-! ### Voice (spec/95_test_vectors.md 2.5) -/

theorem test_vbal : (after (.vbal 0 64) quiet).voices[0] = { Voice.reset with bal := 64 } ∧
    (after (.vbal 0 200) quiet).voices[0].bal = 128 := by decide +kernel

theorem test_vibdepth : (after (.vibdepth 0 0x3200) quiet).voices[0].vibdepth = 12800 ∧
    (after (.vibdepth 0 65536) quiet).voices[0].vibdepth = 65535 := by decide +kernel

theorem test_ven : (after (.ven 3 2) quiet).voices[3] = { Voice.reset with en := true } := by decide +kernel

/-- `NOTEON v60, 255, 0x016872B0` from reset. -/
theorem test_noteon : (after (.noteon 60 255 0x016872B0) quiet).voices[60].e1 =
      { Envelope.reset with st := .attack, tgt := 4095, slv := 4095, rampStep := 0x0FFF0000 } ∧
    (after (.noteon 60 255 0x016872B0) quiet).voices[60].m1.osc.inc = 0x016872B0 ∧
    (after (.noteon 60 255 0x016872B0) quiet).voices[60].en = true := by decide +kernel

/-- Level 0 releases the amplitude envelope and still triggers the depth envelopes. -/
theorem test_noteon_zero : (after (.noteon 5 0 0x40000000) quiet).voices[5].amp.st = .release ∧
    (after (.noteon 5 0 0x40000000) quiet).voices[5].e2.st = .attack := by decide +kernel

theorem test_vibrato : vibratoRatio 32767 25600 = 248079428 ∧ vibratoRatio (-32767) 25600 = -248079429 ∧
    vibratoExtra 0x016872B0 (-248079429) = -1364437 ∧ vibratoRatio (-32767) 65535 = -635073648 := by decide +kernel

theorem test_balance : balanceMix 100 201 64 = 150 ∧ balanceMix (-1) 0 127 = -1 ∧ balanceMix 1000 (-1000) 128 = -1000 := by
  decide +kernel

/-- Program B, tick 2: the vibrato reads the LFO at 0x10000000 and moves the carriers by 484544 besides. -/
theorem test_extra : ({ voiceB with lfo := ⟨0x10000000, 0x10000000, .tri, 128⟩ } : Voice).extra = 484544 := by decide +kernel

/-! ### Cases that meet the hypotheses of the statements

`witness_<Name>` belongs to the statement `Obligations.<Name>`: each clause is met, at boundary values of its range. -/

theorem witness_AcceptedWordsEncodeBack : decode 0x433C00FF016872B0 = .instr (.noteon 60 255 0x016872B0) := by decide

theorem witness_EveryWordHasTheOutcomeOfItsFields : quiet.resetLine = false ∧
    (shapeOf 0x08).isNone = true ∧ (shapeOf 0xFF).isNone = true ∧ (shapeOf 0x00).isSome = true ∧ (shapeOf 0x43).isSome = true ∧
    shapeG.bits 0 0 0 0 = 0 ∧ (shapeVUD oscUnits).bits 200 9 1 1 = 14 := by decide +kernel

theorem witness_StepRunsTheDecodedCommand :
    ({ quiet with inputs := [.command 0x0700000000000040, .resetLine true] } : State).resetLine = false ∧
    ({ quiet with inputs := [.command 0x0700000000000040, .resetLine true] } : State).inputs =
      .command 0x0700000000000040 :: [.resetLine true] ∧
    decode 0x0700000000000040 = .instr (.master 64) := by decide +kernel

/-- A voice out of range, a unit out of range, both, and neither. -/
theorem witness_IllFormedCommandsOnlySetErr : WellFormed (.rdstat 128) = false ∧ WellFormed (.rdstat 255) = false ∧
    WellFormed (.ven 254 1) = false ∧ WellFormed (.modamt 0 0 1 1) = false ∧ WellFormed (.oscwave 128 5 1) = false ∧
    [Instr.rdstat 128, .ven 255 1, .modamt 0 0 1 1, .envvol 127 3 1, .oscwave 128 5 1, .nop].map
      (fun i => (badVoice i, badUnit i)) =
        [(true, false), (false, false), (false, true), (false, true), (true, true), (false, false)] := by decide

theorem witness_TransportIsLittleEndian : 0 < 8 ∧ 7 < 8 ∧ 0 < 4 ∧ 3 < 4 ∧ ([0, 1, 2, 3, 4, 5, 6] : List Byte).length ≠ 8 := by
  decide

theorem witness_ResetInputHoldsTheCore :
    ({ quiet with inputs := [.resetLine true] } : State).inputs = .resetLine true :: [] ∧
    ({ quiet with resetLine := true, inputs := [.command 5] } : State).resetLine = true ∧
    ({ quiet with resetLine := true, inputs := [.command 5] } : State).inputs = .command 5 :: [] ∧
    ({ quiet with resetLine := true, inputs := [.resetLine false] } : State).inputs = .resetLine false :: [] := by
  decide +kernel

/-- A resting state that is not the one after reset: an enabled voice whose depth envelope runs. -/
theorem witness_SilentUntilStruck : ∀ k (h : k < 128),
    (fun x : Voice => x.amp.st = .waiting ∧ x.amp.vol.toNat = 0 ∧ x.vbuf.toNat = 0)
      ((withVoice { Voice.reset with en := true, e1 := envDecay }).voices[k]) := by decide +kernel

theorem witness_NopChangesNothing : quiet.resetLine = false ∧ shapeG.bits 0 0 0 0 = 0 ∧
    shapeG.bits 1 0 0 0 ≠ 0 ∧ shapeG.bits 0 0 0 1 ≠ 0 := by decide +kernel

theorem witness_ResetCommandResetsEveryElement : quiet.resetLine = false ∧ shapeG.bits 0 0 0 0 = 0 ∧
    shapeG.bits 1 0 0 0 ≠ 0 ∧ shapeG.bits 0 0 0 1 ≠ 0 := by decide +kernel

theorem witness_PeekAnswersTheMix : quiet.resetLine = false ∧ shapeG.bits 0 0 0 0 = 0 ∧
    shapeG.bits 1 0 0 0 ≠ 0 ∧ shapeG.bits 0 0 0 1 ≠ 0 := by decide +kernel

theorem witness_AdvanceTicksEveryVoice : quiet.resetLine = false ∧ shapeG.bits 0 0 0 0 = 0 ∧
    shapeG.bits 1 0 0 0 ≠ 0 ∧ shapeG.bits 0 0 0 1 ≠ 0 := by decide +kernel

theorem witness_PullAnswersThenTicks : quiet.resetLine = false ∧ shapeG.bits 0 0 0 0 = 0 ∧
    shapeG.bits 1 0 0 0 ≠ 0 ∧ shapeG.bits 0 0 0 1 ≠ 0 := by decide +kernel

theorem witness_RdstatAnswersStages : quiet.resetLine = false ∧ shapeV.bits 0 0 0 0 = 0 ∧ shapeV.bits 127 0 0 0 = 0 ∧
    shapeV.bits 128 0 0 0 ≠ 0 ∧ shapeV.bits 255 0 0 0 ≠ 0 ∧ shapeV.bits 60 0 0 1 ≠ 0 := by decide +kernel

theorem witness_RderrAnswersErr : quiet.resetLine = false ∧ shapeG.bits 0 0 0 0 = 0 ∧
    shapeG.bits 1 0 0 0 ≠ 0 ∧ shapeG.bits 0 0 0 1 ≠ 0 := by decide +kernel

theorem witness_MasterStoresTheVolume : quiet.resetLine = false ∧ shapeGD.bits 0 0 0 0 = 0 ∧ shapeGD.bits 0 0 0 0xFFFFFFFF = 0 ∧
    shapeGD.bits 0 1 0 64 ≠ 0 ∧ shapeGD.bits 0 0 1 64 ≠ 0 := by decide +kernel

theorem witness_OscillatorParameterWrites : quiet.resetLine = false ∧ (shapeVUD oscUnits).bits 0 0 0 0 = 0 ∧ (shapeVUD oscUnits).bits 127 4 0 5 = 0 ∧ (shapeVUD oscUnits).bits 255 4 0 0xFFFFFFFF = 0 ∧
    (shapeVUD oscUnits).bits 128 0 0 0 ≠ 0 ∧ (shapeVUD oscUnits).bits 254 0 0 0 ≠ 0 ∧ (shapeVUD oscUnits).bits 0 5 0 0 ≠ 0 ∧ (shapeVUD oscUnits).bits 0 0 1 0 ≠ 0 := by decide +kernel

theorem witness_LfoincWritesTheIncrement : quiet.resetLine = false ∧ shapeVD.bits 0 0 0 0 = 0 ∧ shapeVD.bits 127 0 0 0xFFFFFFFF = 0 ∧ shapeVD.bits 255 0 0 5 = 0 ∧
    shapeVD.bits 128 0 0 0 ≠ 0 ∧ shapeVD.bits 254 0 0 0 ≠ 0 ∧ shapeVD.bits 0 1 0 0 ≠ 0 ∧ shapeVD.bits 0 0 1 0 ≠ 0 := by decide +kernel

theorem witness_VfreqTunesTheVoice : quiet.resetLine = false ∧ shapeVD.bits 0 0 0 0 = 0 ∧ shapeVD.bits 127 0 0 0xFFFFFFFF = 0 ∧ shapeVD.bits 255 0 0 5 = 0 ∧
    shapeVD.bits 128 0 0 0 ≠ 0 ∧ shapeVD.bits 254 0 0 0 ≠ 0 ∧ shapeVD.bits 0 1 0 0 ≠ 0 ∧ shapeVD.bits 0 0 1 0 ≠ 0 := by decide +kernel

theorem witness_EnvvolSetsTheVolume : quiet.resetLine = false ∧ (shapeVUD envUnits).bits 0 0 0 0 = 0 ∧ (shapeVUD envUnits).bits 127 2 0 5 = 0 ∧ (shapeVUD envUnits).bits 255 2 0 0xFFFFFFFF = 0 ∧
    (shapeVUD envUnits).bits 128 0 0 0 ≠ 0 ∧ (shapeVUD envUnits).bits 254 0 0 0 ≠ 0 ∧ (shapeVUD envUnits).bits 0 3 0 0 ≠ 0 ∧ (shapeVUD envUnits).bits 0 0 1 0 ≠ 0 := by decide +kernel

theorem witness_EnvelopeParameterWrites : quiet.resetLine = false ∧ (shapeVUD envUnits).bits 0 0 0 0 = 0 ∧ (shapeVUD envUnits).bits 127 2 0 5 = 0 ∧ (shapeVUD envUnits).bits 255 2 0 0xFFFFFFFF = 0 ∧
    (shapeVUD envUnits).bits 128 0 0 0 ≠ 0 ∧ (shapeVUD envUnits).bits 254 0 0 0 ≠ 0 ∧ (shapeVUD envUnits).bits 0 3 0 0 ≠ 0 ∧ (shapeVUD envUnits).bits 0 0 1 0 ≠ 0 := by decide +kernel

theorem witness_ModratioScalesTheIncrement : quiet.resetLine = false ∧ shapeVUAD.bits 0 1 0 0 = 0 ∧ shapeVUAD.bits 127 2 255 5 = 0 ∧ shapeVUAD.bits 255 2 1 0xFFFFFFFF = 0 ∧
    shapeVUAD.bits 128 1 0 0 ≠ 0 ∧ shapeVUAD.bits 254 1 0 0 ≠ 0 ∧ shapeVUAD.bits 0 0 0 0 ≠ 0 ∧ shapeVUAD.bits 0 3 0 0 ≠ 0 := by decide +kernel

theorem witness_ModamtWritesTheAmount : quiet.resetLine = false ∧ shapeVUAD.bits 0 1 0 0 = 0 ∧ shapeVUAD.bits 127 2 255 5 = 0 ∧ shapeVUAD.bits 255 2 1 0xFFFFFFFF = 0 ∧
    shapeVUAD.bits 128 1 0 0 ≠ 0 ∧ shapeVUAD.bits 254 1 0 0 ≠ 0 ∧ shapeVUAD.bits 0 0 0 0 ≠ 0 ∧ shapeVUAD.bits 0 3 0 0 ≠ 0 := by decide +kernel

theorem witness_VoiceRegisterWrites : quiet.resetLine = false ∧ shapeVD.bits 0 0 0 0 = 0 ∧ shapeVD.bits 127 0 0 0xFFFFFFFF = 0 ∧ shapeVD.bits 255 0 0 5 = 0 ∧
    shapeVD.bits 128 0 0 0 ≠ 0 ∧ shapeVD.bits 254 0 0 0 ≠ 0 ∧ shapeVD.bits 0 1 0 0 ≠ 0 ∧ shapeVD.bits 0 0 1 0 ≠ 0 := by decide +kernel

theorem witness_NoteonStrikesTheVoice : quiet.resetLine = false ∧ shapeVAD.bits 0 0 0 0 = 0 ∧ shapeVAD.bits 127 0 255 5 = 0 ∧ shapeVAD.bits 255 0 1 0xFFFFFFFF = 0 ∧
    shapeVAD.bits 128 0 0 0 ≠ 0 ∧ shapeVAD.bits 254 0 0 0 ≠ 0 ∧ shapeVAD.bits 0 1 0 0 ≠ 0 := by decide +kernel

theorem witness_SineTableProperties : 0 < 255 ∧ 255 < 256 ∧ 254 < 255 := by decide

theorem witness_TargetOfALevel : 1 ≤ (1 : Byte).toNat ∧ 1 ≤ (255 : Byte).toNat := by decide

/-- Counts 0 and 1, a move up, a move down, and none. -/
theorem witness_RampStepAndMove : 0 < 1 ∧ 10 ≤ 1 * 10 ∧ toward 0 1 5 = 1 ∧ toward 1 0 5 = 0 ∧ toward 1 1 5 = 1 := by decide

/-- The full peak with unity gain, and volume 0. -/
theorem witness_EffectiveVolumeAndDepth : envDecay.Inv p16 ∧ envDecay.eff = 4095 ∧ Envelope.reset.Inv p16 ∧
    Envelope.reset.eff = 0 := by decide +kernel

theorem witness_SetVolumeBranches : 0 < (1 : Byte).toNat ∧ (0 : Byte).toNat = 0 ∧ envDecay.rpt = false ∧
    ({ envDecay with rpt := true } : Envelope).rpt = true ∧ envAttack.rlA.toNat ≠ 0 ∧ Envelope.reset.rlA.toNat = 0 := by
  decide +kernel

/-- A sample in each stage, ending it and not. -/
theorem witness_AdjustOneSample : Envelope.reset.st = .waiting ∧ envAttack.st = .attack ∧
    envAttack.slv.toNat ≤ envAttack.tgt.toNat ∧
    (({ envAttack with vol := 0x0BFF4000, cntA := 1 } : Envelope).adjust p16 true).1.cntA.toNat = 0 ∧
    (envAttack.adjust p16 true).1.cntA.toNat ≠ 0 ∧ envDecay.st = .decay ∧ envSustain.st = .sustain ∧
    envSustain.rpt = false ∧ envRelease.st = .release ∧ (envLast.adjust p16 true).2 = true ∧
    (envRelease.adjust p16 true).2 = false := by decide +kernel

theorem witness_OnlyTheStageTransitionsOfTheTable : Envelope.reset.st = .waiting ∧ envAttack.st = .attack ∧
    envDecay.st = .decay ∧ envSustain.st = .sustain ∧ envLast.st = .release ∧ (envLast.adjust p16 true).1.st = .waiting := by
  decide +kernel

theorem witness_EnvelopeInvariantsAreKept : Envelope.reset.Inv p16 ∧ envAttack.Inv p16 ∧ envDecay.Inv p16 ∧
    envSustain.Inv p16 ∧ envRelease.Inv p16 :=
  ⟨by decide +kernel, by decide +kernel, by decide +kernel, by decide +kernel, by decide +kernel⟩

theorem witness_StageDurationsAndTrajectories :
    envAttack.st = .attack ∧ envAttack.vol.toNat = 0 ∧
    envAttack.rampStep.toNat = stepSize (envAttack.tgt.toNat * 2 ^ 16) envAttack.cntA.toNat ∧
    envDecay.st = .decay ∧ envDecay.slv.toNat * 2 ^ 16 ≤ envDecay.vol.toNat ∧
    envDecay.rampStep.toNat = stepSize (envDecay.vol.toNat - envDecay.slv.toNat * 2 ^ 16) envDecay.cntD.toNat ∧
    envRelease.st = .release ∧ envRelease.rampStep.toNat = stepSize envRelease.vol.toNat envRelease.cntR.toNat := by decide +kernel

/-- Right at the end of a release of 4 samples, and of one of none. -/
theorem witness_SilentTailAfterNoteOff : envSustain.rpt = false ∧ max envSustain.cntR.toNat 1 ≤ 4 ∧
    Envelope.reset.rpt = false ∧ max Envelope.reset.cntR.toNat 1 ≤ 1 := by decide +kernel

theorem witness_SustainIsReachedAndHeld : 0 < (1 : Byte).toNat ∧ envRelease.rpt = false ∧
    7 < max envRelease.rlA.toNat 1 + max envRelease.rlD.toNat 1 ∧
    max envRelease.rlA.toNat 1 + max envRelease.rlD.toNat 1 ≤ 8 := by decide +kernel

theorem witness_RepeatCycleReturnsToItsStart : ({ envRelease with rpt := true } : Envelope).rpt = true ∧
    max envRelease.rlA.toNat 1 + max envRelease.rlD.toNat 1 + 1 + max envRelease.rlR.toNat 1 = 13 := by decide +kernel

/-- The largest product in magnitude, of either sign. -/
theorem witness_PhaseModulationScaler : (-32767 : Int) ≤ -32767 ∧ (32767 : Int) ≤ 32767 ∧ 65536 ≤ 65536 ∧ 65280 ≤ 65280 := by
  decide

theorem witness_ModulationOffIsPlain : Voice.reset.m1.amountQ = 0 ∧ voiceB.m1.amountQ ≠ 0 ∧ voiceB.e1.depth p16 = 0 ∧
    voiceB.e2.depth p16 = 0 := by decide +kernel

theorem witness_VoiceOutputHeadroom : voiceB.Inv p16 := by
  refine ⟨?_, ?_, ?_, ?_, ?_, ?_, ?_, ?_, ?_⟩ <;> decide +kernel

theorem witness_VibratoIsBounded : Voice.reset.vibdepth.toNat = 0 := by decide

theorem witness_BalanceMix : (128 : Byte).toNat ≤ 128 ∧ (-32767 : Int) ≤ -32767 ∧ (32767 : Int) ≤ 32767 := by decide

/-- Sixteen enabled voices, all at the peak. -/
def fullBudget : State :=
  { quiet with voices := mapVoices (fun k x => if k < 16 then { x with en := true, vbuf := 134180865 } else x) resetVoices }

/-- An idle voice and a voice at its peak keep the invariants. -/
theorem test_voice_inv : Voice.reset.Inv p16 ∧ ({ Voice.reset with en := true, vbuf := 134180865 } : Voice).Inv p16 := by
  constructor <;> refine ⟨?_, ?_, ?_, ?_, ?_, ?_, ?_, ?_, ?_⟩ <;> decide +kernel

/-- Sixteen enabled voices, the whole budget, all at the peak. -/
theorem witness_PolyphonyHeadroom : fullBudget.Inv ∧
    (Finset.univ.filter fun k : Fin 128 => (fullBudget.voices[k.val]).en = true).card = fullBudget.params.maxPolyphony := by
  refine ⟨⟨by decide +kernel, fun k h => ?_⟩, by decide +kernel⟩
  have hv : fullBudget.voices[k] = if k < 16 then { Voice.reset with en := true, vbuf := 134180865 } else Voice.reset := by
    simp [fullBudget]
  rw [hv]
  split
  · exact test_voice_inv.2
  · exact test_voice_inv.1

theorem witness_SampleResponsesAreSignExtended : ∃ t, exec .pull fullBudget = .next t := ⟨_, rfl⟩

/-- A state with a running voice that keeps the invariants, and a step from it. -/
theorem witness_EveryStepKeepsTheInvariants : ((withVoice voiceB).offer 0x0400000000000000).Inv ∧
    ∃ t, step ((withVoice voiceB).offer 0x0400000000000000) = .next t := by
  refine ⟨⟨by decide +kernel, fun k h => ?_⟩, _, rfl⟩
  have hv : ((withVoice voiceB).offer 0x0400000000000000).voices[k] = if k = 0 then voiceB else Voice.reset := by
    simp [withVoice, State.offer]
  rw [hv]
  split
  · exact witness_VoiceOutputHeadroom
  · exact test_voice_inv.1

theorem witness_PhasesMoveOnlyOnTicks : (Instr.noteon 0 255 7) ≠ .advance ∧ (Instr.noteon 0 255 7) ≠ .pull ∧
    (Instr.noteon 0 255 7) ≠ .reset ∧ ∃ t, exec (.noteon 0 255 7) (withVoice voiceB) = .next t :=
  ⟨by decide, by decide, by decide, _, rfl⟩

theorem witness_ErrBitsAreSticky : (∃ t, step ({ quiet with err := 2 }.offer 0x0800000000000000) = .next t) ∧
    ({ quiet with err := 2 }.offer 0x0800000000000000).inputs = [.command 0x0800000000000000] := ⟨⟨_, rfl⟩, rfl⟩

/-- A tick that clears `EN`, and a command that sets it. -/
theorem witness_EnabledFlagLifeCycle :
    (after .advance (withVoice { voiceB with amp := envLast })).voices[0].en = false ∧
    (after (.ven 3 1) quiet).voices[3].en = true := by decide +kernel

theorem witness_VoicesAreIndependent : quiet.params = (withVoice voiceB).params ∧
    quiet.voices[127] = (withVoice voiceB).voices[127] ∧ quiet.voices[0] ≠ (withVoice voiceB).voices[0] := by decide +kernel

theorem witness_BroadcastIsEveryVoiceOnce : writesVoices (.noteon 3 255 7) = true ∧ writesVoices (.modamt 0 3 1 1) = true := by
  decide

theorem witness_RepeatedCommandsChangeNothingMore : responds (.noteon 0 0 7) = false ∧ responds (.rdstat 127) = true ∧
    WellFormed (.rdstat 127) = true ∧ WellFormed (.rdstat 128) = false ∧ WellFormed (.rdstat 255) = false ∧
    responds (.oscwave 0 5 1) = false ∧ WellFormed (.oscwave 0 5 1) = false ∧ decode 0x0800000000000000 = .illegalOpcode 8 ∧
    decode 0x0200000000000001 = .reservedField 8 ∧ quiet.resetLine = false := by decide +kernel

theorem witness_ParameterWritesWaitForTheNextTick : writesParameters (.vbal 255 64) = true ∧
    (Instr.vbal 255 64) ≠ .advance ∧ (Instr.vbal 255 64) ≠ .pull ∧ (Instr.vbal 255 64) ≠ .reset := by decide

end Sys2Proof.Tests
end

/-! The family of spec/30_encoding.md: the outcome of every command word (R91), and broadcast (R86). -/

namespace Sys2Proof.Proofs.Encoding

open Sys2Proof.Machine Sys2Proof.Claims

/-! ### The opcode map, read backwards (R90) -/

/-- A command read from a word's fields has the word's opcode. -/
theorem op_of_instrOf {op voice unit aux : Byte} {data : Word} {i : Instr}
    (h : instrOf op voice unit aux data = some i) : op = BitVec.ofNat 8 (opcodeOf i) := by
  apply BitVec.eq_of_toNat_eq
  unfold instrOf at h
  split at h <;> cases h <;> assumption

/-- An opcode that names no command has no shape (R92). -/
theorem shapeOf_of_instrOf_none {op voice unit aux : Byte} {data : Word}
    (h : instrOf op voice unit aux data = none) : shapeOf op.toNat = none := by
  unfold instrOf at h
  split at h
  case h_26 =>
    simp only [imp_false] at *
    unfold shapeOf
    repeat rw [if_neg (by omega)]
  all_goals cases h

/-- A command read from fields whose unused ones are zero encodes back to these fields (R82, R89). -/
theorem encode_of_instrOf {op voice unit aux : Byte} {data : Word} {i : Instr}
    (h : instrOf op voice unit aux data = some i) (hz : reservedZero (formatOf i) voice unit aux data = true) :
    encode i = packWord op voice unit aux data := by
  obtain rfl := op_of_instrOf h
  cases i <;> obtain ⟨⟩ := h <;> simp_all [formatOf, reservedZero, encode, opcodeOf]

/-! ### The cause bits of a shape are those of its format (R82, R91) -/

/-- One check of R91: no cause bit if it passes, else the bit of the check. -/
def causeUnless (ok : Bool) (bit : ErrBits) : ErrBits := if ok then 0 else bit

theorem bits_eq_checks (sh : Shape) (voice unit aux : Byte) (data : Word) : sh.bits voice unit aux data =
    causeUnless (sh.voiceOk voice) sh.voiceBit ||| causeUnless (sh.unitOk unit) sh.unitBit |||
      causeUnless (sh.auxUsed || aux.toNat == 0) 8 ||| causeUnless (sh.dataUsed || data.toNat == 0) 8 := rfl

theorem causeBits_eq_checks (i : Instr) (voice unit aux : Byte) (data : Word) :
    causeBits i voice unit aux data =
      operandErr i ||| causeUnless (reservedZero (formatOf i) voice unit aux data) 8 := rfl

/-- Two checks with the same cause bit are the check of both. -/
theorem causeUnless_or (p q : Bool) (bit : ErrBits) :
    causeUnless p bit ||| causeUnless q bit = causeUnless (p && q) bit := by
  cases p <;> cases q <;> simp [causeUnless]

theorem causeUnless_anyVoice (voice : Byte) : causeUnless (anyVoice voice) 2 = voiceErr voice := by
  simp [causeUnless, anyVoice, voiceErr, errVoice]

theorem causeUnless_oneVoice (voice : Byte) : causeUnless (oneVoice voice) 2 = voiceReadErr voice := by
  simp [causeUnless, oneVoice, voiceReadErr, errVoice]

theorem causeUnless_oscUnits (unit : Byte) : causeUnless (oscUnits unit) 4 = oscUnitErr unit := by
  simp [causeUnless, oscUnits, oscUnitErr, errUnit]

theorem causeUnless_envUnits (unit : Byte) : causeUnless (envUnits unit) 4 = envUnitErr unit := by
  simp [causeUnless, envUnits, envUnitErr, errUnit]

theorem causeUnless_modUnits (unit : Byte) : causeUnless (modUnits unit) 4 = modUnitErr unit := by
  simp [causeUnless, modUnits, modUnitErr, errUnit]

theorem toNat_beq_zero {n : Nat} (b : BitVec n) : (b.toNat == 0) = decide (b = 0) := by
  rw [Bool.eq_iff_iff, beq_iff_eq, decide_eq_true_iff, ← BitVec.toNat_inj]
  rfl

section
variable (voice unit aux : Byte) (data : Word)

theorem shapeG_bits : shapeG.bits voice unit aux data = causeUnless (reservedZero .g voice unit aux data) 8 := by
  simp only [bits_eq_checks, shapeG, unused, toNat_beq_zero, causeUnless_or, reservedZero, Bool.decide_and,
    Bool.false_or, Bool.and_assoc]

theorem shapeGD_bits : shapeGD.bits voice unit aux data = causeUnless (reservedZero .gd voice unit aux data) 8 := by
  simp only [bits_eq_checks, shapeGD, unused, toNat_beq_zero, causeUnless_or, reservedZero, Bool.decide_and,
    Bool.false_or, Bool.true_or, Bool.and_assoc, Bool.and_true]

theorem shapeV_bits : shapeV.bits voice unit aux data =
    voiceReadErr voice ||| causeUnless (reservedZero .v voice unit aux data) 8 := by
  simp only [bits_eq_checks, shapeV, causeUnless_oneVoice, unused, toNat_beq_zero, BitVec.or_assoc, causeUnless_or,
    reservedZero, Bool.decide_and, Bool.false_or, Bool.and_assoc]

theorem shapeVD_bits : shapeVD.bits voice unit aux data =
    voiceErr voice ||| causeUnless (reservedZero .vd voice unit aux data) 8 := by
  simp only [bits_eq_checks, shapeVD, causeUnless_anyVoice, unused, toNat_beq_zero, BitVec.or_assoc, causeUnless_or,
    reservedZero, Bool.decide_and, Bool.false_or, Bool.true_or, Bool.and_true]

theorem shapeVUD_bits (units : Byte → Bool) : (shapeVUD units).bits voice unit aux data =
    voiceErr voice ||| causeUnless (units unit) 4 ||| causeUnless (reservedZero .vud voice unit aux data) 8 := by
  simp only [bits_eq_checks, shapeVUD, causeUnless_anyVoice, toNat_beq_zero, BitVec.or_assoc, causeUnless_or,
    reservedZero, Bool.false_or, Bool.true_or, Bool.and_true]

theorem shapeVUAD_bits : shapeVUAD.bits voice unit aux data =
    voiceErr voice ||| modUnitErr unit ||| causeUnless (reservedZero .vuad voice unit aux data) 8 := by
  simp only [bits_eq_checks, shapeVUAD, causeUnless_anyVoice, causeUnless_modUnits, BitVec.or_assoc, causeUnless_or,
    reservedZero, Bool.true_or, Bool.and_true]

theorem shapeVAD_bits : shapeVAD.bits voice unit aux data =
    voiceErr voice ||| causeUnless (reservedZero .vad voice unit aux data) 8 := by
  simp only [bits_eq_checks, shapeVAD, causeUnless_anyVoice, unused, toNat_beq_zero, BitVec.or_assoc, causeUnless_or,
    reservedZero, Bool.true_or, Bool.and_true]

end

/-- The opcode of a command has a shape, and the shape's cause bits are the decoder's (R82, R91). -/
theorem shapeOf_of_instrOf_some {op voice unit aux : Byte} {data : Word} {i : Instr}
    (h : instrOf op voice unit aux data = some i) :
    ∃ sh, shapeOf op.toNat = some sh ∧ sh.bits voice unit aux data = causeBits i voice unit aux data := by
  obtain rfl := op_of_instrOf h
  rw [causeBits_eq_checks]
  cases i <;> obtain ⟨⟩ := h
  case nop | reset | peek | advance | pull | rderr =>
    exact ⟨shapeG, rfl, (shapeG_bits ..).trans BitVec.zero_or.symm⟩
  case master => exact ⟨shapeGD, rfl, (shapeGD_bits ..).trans BitVec.zero_or.symm⟩
  case rdstat => exact ⟨shapeV, rfl, shapeV_bits ..⟩
  case lfoinc | vfreq | vbal | vibdepth | ven => exact ⟨shapeVD, rfl, shapeVD_bits ..⟩
  case oscwave | oscduty => exact ⟨shapeVUD oscUnits, rfl, (shapeVUD_bits ..).trans (by rw [causeUnless_oscUnits]; rfl)⟩
  case envvol | envatk | envdec | envsus | envrel | envgain | envrpt =>
    exact ⟨shapeVUD envUnits, rfl, (shapeVUD_bits ..).trans (by rw [causeUnless_envUnits]; rfl)⟩
  case modratio | modamt => exact ⟨shapeVUAD, rfl, shapeVUAD_bits ..⟩
  case noteon => exact ⟨shapeVAD, rfl, shapeVAD_bits ..⟩

/-! ### The outcome of a word (R91) -/

/-- No cause bit at all: the command is well-formed and its unused fields are zero. -/
theorem causeBits_eq_zero (i : Instr) (voice unit aux : Byte) (data : Word) :
    causeBits i voice unit aux data = 0 ↔
      WellFormed i = true ∧ reservedZero (formatOf i) voice unit aux data = true := by
  rw [causeBits, or_eq_zero, operandErr_eq_zero]
  simp [errRsvd]

/-- A word with an assigned opcode and no cause bit is the encoding of the well-formed command it decodes to. -/
theorem accepted_word {op voice unit aux : Byte} {data : Word} {i : Instr}
    (h : instrOf op voice unit aux data = some i) (h0 : causeBits i voice unit aux data = 0) :
    decode (packWord op voice unit aux data) = .instr i ∧ WellFormed i = true ∧
      encode i = packWord op voice unit aux data := by
  obtain ⟨hwf, hz⟩ := (causeBits_eq_zero ..).mp h0
  refine ⟨?_, hwf, encode_of_instrOf h hz⟩
  rw [decode_packWord]
  simp [h, hz]

/-- Settles O4: a word is its fields, and its opcode either names no command and has no shape, or names a command whose
cause bits are its shape's. -/
theorem everyWordHasTheOutcomeOfItsFields : Obligations.EveryWordHasTheOutcomeOfItsFields := by
  intro w s hr
  rw [show w.extractLsb' 56 8 = opField w from rfl]
  have hw := packWord_fields w
  rw [step_offer s w hr]
  cases h : instrOf (opField w) (voiceField w) (unitField w) (auxField w) (dataField w) with
  | none =>
    have hexec := execWord_illegal _ _ _ _ _ s h
    rw [hw] at hexec
    rw [shapeOf_of_instrOf_none h]
    exact hexec
  | some i =>
    obtain ⟨sh, hsh, hbits⟩ := shapeOf_of_instrOf_some h
    have hexec := execWord_packWord _ _ _ _ _ i s h
    rw [hw, ← hbits] at hexec
    rw [hsh]
    refine ⟨fun hne => hexec.trans (if_neg hne), fun h0 => ?_⟩
    obtain ⟨hdec, hwf, henc⟩ := accepted_word h (hbits.symm.trans h0)
    rw [hw] at hdec henc
    exact ⟨i, hdec, hwf, henc, hexec.trans (if_pos h0)⟩

/-! ### A command aimed at other voices (R86, R87) -/

/-- A command that writes voices does the same to each voice, whichever voices it is aimed at. -/
theorem voiceWrite_retarget (p : Params) (i : Instr) (hw : writesVoices i = true) :
    ∃ f, ∀ voice, voiceWrite p (retarget voice i) = some (voice, f) := by
  cases i
  case nop | reset | peek | advance | pull | rdstat | rderr | master => cases hw
  all_goals exact ⟨_, fun _ => rfl⟩

/-- Aimed at voices that exist, a command has the cause bits of its other operands. -/
theorem operandErr_retarget (i : Instr) (voice voice' : Byte) (h : voiceErr voice = 0) (h' : voiceErr voice' = 0) :
    operandErr (retarget voice i) = operandErr (retarget voice' i) := by
  cases i <;> simp only [retarget, operandErr, h, h']

theorem voiceErr_ofNat {k : Nat} (hk : k < 128) : voiceErr (BitVec.ofNat 8 k) = 0 := by
  rw [voiceErr_eq_zero, voiceOk, decide_eq_true_iff, BitVec.toNat_ofNat]
  omega

/-! ### Commands in a row -/

theorem execAll_append {xs : List Instr} {s t : State} (h : execAll xs s = .next t) (ys : List Instr) :
    execAll (xs ++ ys) s = execAll ys t := by
  induction xs generalizing s with
  | nil => cases h; rfl
  | cons i rest ih =>
    rw [execAll] at h
    rw [List.cons_append, execAll]
    split at h
    · exact ih h
    · cases h
    · cases h

theorem execAll_single (i : Instr) (s : State) : execAll [i] s = exec i s := by
  rw [execAll]
  split <;> simp_all [execAll]

/-- The command executed once for each of the voices `0 .. n`: the last voice comes after those before it. -/
theorem execAll_range_succ {c : Nat → Instr} {n : Nat} {s t : State}
    (h : execAll ((List.range n).map c) s = .next t) : execAll ((List.range (n + 1)).map c) s = exec (c n) t := by
  rw [List.range_succ, List.map_append, execAll_append h]
  exact execAll_single _ _

/-! ### The rejected command (R260) -/

/-- Rejecting twice for the same causes is rejecting once: the bits of `ERR` are sticky (R264). -/
theorem reject_reject (s : State) (bits : ErrBits) : (s.reject bits).reject bits = s.reject bits := by
  simp [State.reject, BitVec.or_assoc]

/-- Commands that are all rejected for the same causes leave what the first of them leaves. -/
theorem execAll_rejected {c : Nat → Instr} {bits : ErrBits} {n : Nat} (s : State)
    (hc : ∀ k, k ≤ n → ∀ t, exec (c k) t = .next (t.reject bits)) :
    execAll ((List.range (n + 1)).map c) s = .next (s.reject bits) := by
  induction n with
  | zero => exact (execAll_range_succ rfl).trans (hc 0 le_rfl s)
  | succ n ih =>
    have hn := ih fun k hk => hc k (Nat.le_succ_of_le hk)
    rw [execAll_range_succ hn, hc (n + 1) le_rfl, reject_reject]

/-! ### The accepted command (R86) -/

/-- The voices `0 .. n - 1` changed by `f`: a broadcast command executed for the first `n` voices. -/
def onFirst (n : Nat) (f : Voice → Voice) (s : State) : State :=
  { s with voices := mapVoices (fun k x => if k < n then f x else x) s.voices }

theorem onFirst_zero (f : Voice → Voice) (s : State) : onFirst 0 f s = s := by
  have hv : mapVoices (fun k x => if k < 0 then f x else x) s.voices = s.voices := by
    ext1 k hk
    simp
  rw [onFirst, hv]

/-- One voice more. -/
theorem onFirst_succ {n : Nat} (hn : n < 128) (f : Voice → Voice) (s : State) :
    (onFirst n f s).onVoices (BitVec.ofNat 8 n) f = onFirst (n + 1) f s := by
  have hv : onTargets (BitVec.ofNat 8 n) f (onFirst n f s).voices = (onFirst (n + 1) f s).voices := by
    ext1 k hk
    have htarget : (BitVec.ofNat 8 n).toNat = k ∨ (BitVec.ofNat 8 n).toNat = 255 ↔ n = k := by
      rw [BitVec.toNat_ofNat]
      omega
    simp only [onTargets_getElem, onFirst, mapVoices_getElem, htarget]
    by_cases hnk : n = k
    · simp [hnk]
    · have hlt : k < n ↔ k < n + 1 := by omega
      simp only [hnk, hlt, if_false]
  rw [State.onVoices, hv]
  rfl

/-- All 128 voices are the targets of a broadcast (R86). -/
theorem onFirst_all (f : Voice → Voice) (s : State) : onFirst 128 f s = s.onVoices 255 f := by
  have hv : (onFirst 128 f s).voices = onTargets 255 f s.voices := by
    ext1 k hk
    simp [onFirst, hk]
  rw [State.onVoices, ← hv]
  rfl

/-- Commands that change one voice each, by the same function. -/
theorem execAll_onFirst {c : Nat → Instr} {f : Voice → Voice} {n : Nat} (s : State) (hn : n ≤ 128)
    (hc : ∀ k, k < 128 → ∀ t, t.params = s.params → exec (c k) t = .next (t.onVoices (BitVec.ofNat 8 k) f)) :
    execAll ((List.range n).map c) s = .next (onFirst n f s) := by
  induction n with
  | zero => rw [onFirst_zero]; rfl
  | succ n ih => rw [execAll_range_succ (ih (by omega)), hc n hn (onFirst n f s) rfl, onFirst_succ hn]

/-- A broadcast of a command that writes voices: all 129 executions have the same cause bits, so either all are rejected or
each changes its voices by the same function. -/
theorem exec_broadcast (i : Instr) (s : State) (hw : writesVoices i = true) :
    exec (retarget 255 i) s = execAll ((List.range 128).map fun k => retarget (BitVec.ofNat 8 k) i) s := by
  obtain ⟨f, hf⟩ := voiceWrite_retarget s.params i hw
  have hbits : ∀ k, k < 128 → operandErr (retarget (BitVec.ofNat 8 k) i) = operandErr (retarget 255 i) :=
    fun k hk => operandErr_retarget i _ _ (voiceErr_ofNat hk) (by decide)
  by_cases h0 : operandErr (retarget 255 i) = 0
  · have hone : ∀ k, k < 128 → ∀ t : State, t.params = s.params →
        exec (retarget (BitVec.ofNat 8 k) i) t = .next (t.onVoices (BitVec.ofNat 8 k) f) := by
      intro k hk t ht
      rw [exec_voiceWrite _ t _ f (ht ▸ hf _), hbits k hk, h0, accepted_zero]
    rw [execAll_onFirst s le_rfl hone, onFirst_all, exec_voiceWrite _ s _ f (hf 255), h0, accepted_zero]
  · have hone : ∀ k, k ≤ 127 → ∀ t,
        exec (retarget (BitVec.ofNat 8 k) i) t = .next (t.reject (operandErr (retarget 255 i))) := by
      intro k hk t
      have hk' := hbits k (by omega)
      rw [exec_of_operandErr _ t (hk' ▸ h0), hk']
    rw [execAll_rejected s hone, exec_of_operandErr _ s h0]

/-- `RDSTAT` has no broadcast: 255 is out of its range (R86). -/
theorem exec_rdstat_broadcast (s : State) : exec (.rdstat 255) s = .next (s.reject errVoice) :=
  exec_of_operandErr (.rdstat 255) s (by decide)

/-- Settles O57, by the cause bits that all the executions share. -/
theorem broadcastIsEveryVoiceOnce : Obligations.BroadcastIsEveryVoiceOnce :=
  ⟨exec_broadcast, exec_rdstat_broadcast⟩

end Sys2Proof.Proofs.Encoding

/-! A command's rule, whole (spec/30_encoding.md R81, R91): what the opcode map and `voiceWrite` say of a command gives its
`CommandRule`, for the command executed and for its word delivered. -/

namespace Sys2Proof.Proofs.Rules

open Sys2Proof.Machine Sys2Proof.Claims Sys2Proof.Proofs.Encoding

/-- The word of R81 is the fields one after the other. -/
theorem wordOf_eq_packWord (op : Nat) (voice unit aux : Byte) (data : Word) :
    wordOf op voice unit aux data = packWord (BitVec.ofNat 8 op) voice unit aux data := by
  apply BitVec.eq_of_toNat_eq
  rw [packWord_toNat, wordOf, BitVec.toNat_ofNat, BitVec.toNat_ofNat]
  omega

/-- The cause bits of an opcode's shape are the decoder's for the command the opcode names. -/
theorem bits_eq_causeBits {op : Nat} {sh : Shape} {voice unit aux : Byte} {data : Word} {i : Instr} (hop : op < 256)
    (hsh : shapeOf op = some sh) (hi : instrOf (BitVec.ofNat 8 op) voice unit aux data = some i) :
    sh.bits voice unit aux data = causeBits i voice unit aux data := by
  obtain ⟨sh', hsh', hbits⟩ := shapeOf_of_instrOf_some hi
  rw [BitVec.toNat_ofNat, Nat.mod_eq_of_lt hop, hsh, Option.some.injEq] at hsh'
  rwa [hsh']

section
variable {op : Nat} {sh : Shape} {command : Byte → Byte → Byte → Word → Instr}

/-- A command's rule follows from the effect of its well-formed executions: the word delivered is rejected with the bits of
its shape, or runs the command. -/
theorem commandRule_of_effect {Effect : Byte → Byte → Byte → Word → State → State → Prop} (hop : op < 256)
    (hsh : shapeOf op = some sh)
    (hi : ∀ voice unit aux data, instrOf (BitVec.ofNat 8 op) voice unit aux data = some (command voice unit aux data))
    (heffect : ∀ voice unit aux data s, WellFormed (command voice unit aux data) = true →
      ∃ t, exec (command voice unit aux data) s = .next t ∧ Effect voice unit aux data s t) :
    CommandRule op sh command Effect := by
  intro voice unit aux data s
  have hword := execWord_packWord _ voice unit aux data _ s (hi voice unit aux data)
  rw [← wordOf_eq_packWord] at hword
  rw [bits_eq_causeBits hop hsh (hi voice unit aux data)]
  refine ⟨fun h0 => ?_, fun hne hr => ?_⟩
  · obtain ⟨hwf, -⟩ := (causeBits_eq_zero ..).mp h0
    obtain ⟨t, hexec, ht⟩ := heffect voice unit aux data s hwf
    refine ⟨t, hexec, ht, fun hr => ?_⟩
    rw [step_offer _ _ hr, hword, if_pos h0, hexec]
  · rw [step_offer _ _ hr, hword, if_neg hne, State.reject]

/-- What `onVoices` leaves (R87). -/
theorem voicesChanged_onVoices (voice : Byte) (f : Voice → Voice) (s : State) :
    VoicesChanged voice f s (s.onVoices voice f) :=
  ⟨rfl, fun k hk => onTargets_getElem voice f s.voices k hk⟩

/-- The rule of a command that writes voices: `f` is what it does to each voice it names. -/
theorem commandRule_of_voiceWrite (f : Params → Byte → Byte → Word → Voice → Voice) (hop : op < 256)
    (hsh : shapeOf op = some sh)
    (hi : ∀ voice unit aux data, instrOf (BitVec.ofNat 8 op) voice unit aux data = some (command voice unit aux data))
    (hf : ∀ p voice unit aux data, WellFormed (command voice unit aux data) = true →
      voiceWrite p (command voice unit aux data) = some (voice, f p unit aux data)) :
    CommandRule op sh command (fun voice unit aux data s => VoicesChanged voice (f s.params unit aux data) s) := by
  refine commandRule_of_effect hop hsh hi fun voice unit aux data s hwf => ?_
  refine ⟨s.onVoices voice (f s.params unit aux data), ?_, voicesChanged_onVoices ..⟩
  rw [exec_voiceWrite _ s voice _ (hf s.params voice unit aux data hwf), (operandErr_eq_zero _).mpr hwf, accepted_zero]

end

end Sys2Proof.Proofs.Rules

/-! The family of spec/40_oscillator.md: the sine table (R116, R117), the four waveforms (R118 to R122), `VFREQ` (R124,
R129). -/

namespace Sys2Proof.Proofs.Waves

open Sys2Proof.Machine Sys2Proof.Claims Sys2Proof.Proofs.Rules

/-! ### The sine table (R116, R117) -/

theorem sineTable_length : Config.sineTable.length = 256 := by decide +kernel

/-- Each entry of the table is below the next one. -/
theorem sineTable_isChain : Config.sineTable.IsChain (· < ·) := by decide +kernel

/-- P2 of R117. -/
theorem sineRom_strictMono {a b : Nat} (hab : a < b) (hb : b < 256) : sineRom a < sineRom b := by
  have hsorted := List.isChain_iff_pairwise.mp sineTable_isChain
  have hb' : b < Config.sineTable.length := sineTable_length ▸ hb
  have ha' : a < Config.sineTable.length := hab.trans hb'
  rw [sineRom, sineRom, List.getD_eq_getElem _ _ ha', List.getD_eq_getElem _ _ hb']
  exact List.pairwise_iff_getElem.mp hsorted a b ha' hb' hab

theorem sineRom_first : sineRom 0 = 101 := rfl

theorem sineRom_last : sineRom 255 = 32767 := rfl

/-- P1 of R117: an increasing table lies between its first and its last entry. -/
theorem sineRom_range {a : Nat} (ha : a < 256) : 1 ≤ sineRom a ∧ sineRom a ≤ 32767 := by
  have hfirst : sineRom 0 ≤ sineRom a := by
    rcases Nat.eq_zero_or_pos a with rfl | h0
    · exact le_rfl
    · exact (sineRom_strictMono h0 ha).le
  have hlast : sineRom a ≤ sineRom 255 := by
    rcases Nat.lt_or_ge a 255 with h | h
    · exact (sineRom_strictMono h (by decide)).le
    · rw [show a = 255 by omega]
  rw [sineRom_first] at hfirst
  rw [sineRom_last] at hlast
  omega

/-! ### The sine, folded onto the table (R119) -/

/-- The table index of a phase: read backwards in the second quarter of each half period. -/
def foldedIndex (p : Word) : Nat :=
  if p.toNat / 2 ^ 30 % 2 = 1 then 255 - p.toNat / 2 ^ 22 % 256 else p.toNat / 2 ^ 22 % 256

theorem foldedIndex_lt (p : Word) : foldedIndex p < 256 := by
  unfold foldedIndex
  split <;> omega

/-- The sine is a table entry, negated in the second half of the period. -/
theorem sine_eq (p : Word) :
    sine p = if 2 ^ 31 ≤ p.toNat then -(sineRom (foldedIndex p) : Int) else (sineRom (foldedIndex p) : Int) := by
  have hquarter : p.toNat / 2 ^ 22 / 256 = p.toNat / 2 ^ 30 := by omega
  have hhalf : p.toNat / 2 ^ 30 / 2 % 2 = 1 ↔ 2 ^ 31 ≤ p.toNat := by omega
  simp only [sine, foldedIndex, hquarter, hhalf]

theorem sine_range (p : Word) : -32767 ≤ sine p ∧ sine p ≤ 32767 := by
  have hentry := sineRom_range (foldedIndex_lt p)
  rw [sine_eq]
  split <;> omega

/-- Two phases in different halves of the period that fold onto the same entry have opposite sines. -/
theorem sine_eq_neg {p q : Word} (hfold : foldedIndex q = foldedIndex p) (hhalf : 2 ^ 31 ≤ q.toNat ↔ p.toNat < 2 ^ 31) :
    sine q = -sine p := by
  rw [sine_eq, sine_eq, hfold]
  split <;> split <;> omega

/-- Half a period later the sine has the opposite sign: the lower 31 bits of the phase are the same. -/
theorem sine_half_period (p : Word) : sine (p + 0x80000000) = -sine p := by
  have hp := p.isLt
  have hq := (p + 0x80000000).isLt
  have hsum : (p + 0x80000000).toNat = (p.toNat + 2147483648) % 2 ^ 32 := BitVec.toNat_add p 0x80000000
  generalize p + 0x80000000 = q at hq hsum ⊢
  have hapart : q.toNat = p.toNat + 2 ^ 31 ∨ q.toNat + 2 ^ 31 = p.toNat := by omega
  apply sine_eq_neg
  · have hquarter : q.toNat / 2 ^ 30 % 2 = p.toNat / 2 ^ 30 % 2 := by omega
    have hindex : q.toNat / 2 ^ 22 % 256 = p.toNat / 2 ^ 22 % 256 := by omega
    rw [foldedIndex, foldedIndex, hquarter, hindex]
  · omega

/-- The mirrored phase complements every bit: the other half, the other quarter, and the index counted from the end. -/
theorem sine_mirror (p : Word) : sine (0xFFFFFFFF - p) = -sine p := by
  have hlt := p.isLt
  have hq : (0xFFFFFFFF - p).toNat = 2 ^ 32 - 1 - p.toNat := by
    rw [BitVec.toNat_sub_of_le (by bv_omega)]
    rfl
  apply sine_eq_neg
  · have hquarter : (0xFFFFFFFF - p).toNat / 2 ^ 30 % 2 = 1 - p.toNat / 2 ^ 30 % 2 := by omega
    have hindex : (0xFFFFFFFF - p).toNat / 2 ^ 22 % 256 = 255 - p.toNat / 2 ^ 22 % 256 := by omega
    rw [foldedIndex, foldedIndex, hquarter, hindex]
    split <;> split <;> omega
  · omega

/-- Settles O30, by the order of the table and by how the two symmetries act on the folded index. -/
theorem sineTableProperties : Obligations.SineTableProperties :=
  ⟨sineTable_length, fun _ ha => sineRom_range ha, fun _ _ hab hb => sineRom_strictMono hab hb, sineRom_first,
    sineRom_last, sine_half_period, sine_mirror, sine_range⟩

/-! ### The waveforms by the bits of the phase (R118, R119) -/

/-- A field of the phase as a number. -/
theorem phaseField_toNat (p : Word) (start len : Nat) :
    (p.extractLsb' start len).toNat = p.toNat / 2 ^ start % 2 ^ len := by
  rw [BitVec.extractLsb'_toNat, Nat.shiftRight_eq_div_pow]

/-- The top half of the phase, which `SAW` and `TRI` read. -/
theorem phaseHalf_toNat (p : Word) : (p.extractLsb' 16 16).toNat = p.toNat / 2 ^ 16 := by
  have hlt := p.isLt
  rw [phaseField_toNat]
  omega

/-- The top byte of the phase, which `SQUARE` reads. -/
theorem phaseByte_toNat (p : Word) : (p.extractLsb' 24 8).toNat = p.toNat / 2 ^ 24 := by
  have hlt := p.isLt
  rw [phaseField_toNat]
  omega

/-- The top bit of the phase says in which half of the period it is. -/
theorem phaseSign_toNat (p : Word) : (p.extractLsb' 31 1).toNat = 1 ↔ 2 ^ 31 ≤ p.toNat := by
  have hlt := p.isLt
  rw [phaseField_toNat]
  omega

/-- The folded index by the bits of the phase: bit 30 says whether bits 29 to 22 are counted from the end. -/
theorem foldedIndex_eq_fields (p : Word) :
    foldedIndex p =
      if (p.extractLsb' 30 1).toNat = 1 then 255 - (p.extractLsb' 22 8).toNat else (p.extractLsb' 22 8).toNat := by
  simp only [phaseField_toNat, foldedIndex, Nat.reducePow]

section
variable (p : Word) (duty : Byte)

theorem waveSample_saw :
    waveSample .saw p duty = max (((p.extractLsb' 16 16).toNat : Int) - 32768) (-32767) := by
  rw [phaseHalf_toNat]
  rfl

theorem waveSample_square :
    waveSample .square p duty = if (p.extractLsb' 24 8).toNat < duty.toNat then 32767 else -32767 := by
  rw [phaseByte_toNat]
  rfl

theorem waveSample_tri : waveSample .tri p duty = triWave (p.extractLsb' 16 16).toNat := by
  rw [phaseHalf_toNat]
  rfl

theorem waveSample_sine :
    waveSample .sine p duty =
      if (p.extractLsb' 31 1).toNat = 1 then -(sineRom (foldedIndex p) : Int) else (sineRom (foldedIndex p) : Int) := by
  simp only [phaseSign_toNat]
  exact sine_eq p

end

/-- The triangle with its corners compared as integers (R122). -/
theorem triWave_eq (x : Nat) :
    triWave x = if (x : Int) < 16384 then 2 * (x : Int) else if (x : Int) < 49152 then 65535 - 2 * (x : Int)
      else 2 * (x : Int) - 131070 := by
  have hrise : (x : Int) < 16384 ↔ x < 16384 := by omega
  have hfall : (x : Int) < 49152 ↔ x < 49152 := by omega
  simp only [hrise, hfall, triWave]

/-! ### The range of a sample (R118) -/

theorem sawWave_range {x : Nat} (hx : x < 2 ^ 16) : -32767 ≤ sawWave x ∧ sawWave x ≤ 32767 := by
  unfold sawWave
  omega

theorem squareWave_range (top : Nat) (duty : Byte) : -32767 ≤ squareWave top duty ∧ squareWave top duty ≤ 32767 := by
  unfold squareWave
  split <;> decide

theorem triWave_range {x : Nat} (hx : x < 2 ^ 16) : -32767 ≤ triWave x ∧ triWave x ≤ 32767 := by
  unfold triWave
  split
  · omega
  · split <;> omega

/-- Every waveform stays clear of -32768. -/
theorem waveSample_range (sel : Waveform) (p : Word) (duty : Byte) :
    -32767 ≤ waveSample sel p duty ∧ waveSample sel p duty ≤ 32767 := by
  have hhalf : p.toNat / 2 ^ 16 < 2 ^ 16 := by have hlt := p.isLt; omega
  cases sel with
  | sine => exact sine_range p
  | saw => exact sawWave_range hhalf
  | square => exact squareWave_range _ duty
  | tri => exact triWave_range hhalf

/-- Settles O29, one waveform at a time: its formula by the bits of the phase, and its range. -/
theorem waveformsAndTheirRange : Obligations.WaveformsAndTheirRange := by
  refine ⟨fun p duty => ⟨waveSample_saw p duty, waveSample_square p duty, ?_, ?_⟩, waveSample_range⟩
  · exact (waveSample_tri p duty).trans (triWave_eq _)
  · rw [waveSample_sine, foldedIndex_eq_fields]
    rfl

/-! ### `VFREQ` (R124, R129) -/

/-- A modulator's refreshed increment is the truncated product of R124. -/
theorem scaledInc_eq_modulatorInc (m : Modulator) (inc : Word) : m.scaledInc inc = modulatorInc m.ratio m.ratioDiv inc := by
  apply BitVec.eq_of_toNat_eq
  rw [scaledInc_toNat, modulatorInc, BitVec.toNat_ofNat, Nat.mod_mod]
  rfl

/-- `set_freq` tunes the voice. -/
theorem setFreq_eq_tuned (inc : Word) (x : Voice) : x.setFreq inc = tuned inc x := by
  simp only [Voice.setFreq, Modulator.refresh, scaledInc_eq_modulatorInc, tuned]

theorem voiceWrite_vfreq (p : Params) (voice : Byte) (data : Word) :
    voiceWrite p (.vfreq voice data) = some (voice, tuned data) :=
  congrArg (fun f => some (voice, f)) (funext (setFreq_eq_tuned data))

/-- Settles O22: `VFREQ` writes voices, each by `set_freq`. -/
theorem vfreqTunesTheVoice : Obligations.VfreqTunesTheVoice :=
  commandRule_of_voiceWrite (fun _ _ _ data => tuned data) (by decide) rfl (fun _ _ _ _ => rfl)
    (fun p voice _ _ data _ => voiceWrite_vfreq p voice data)

end Sys2Proof.Proofs.Waves

/-! The family of spec/41_envelope.md: the target (R143), the ramp (R145, R146), `set_volume` (R150), `adjust` (R155), the
stages (R141) and how long each lasts (R161). -/

namespace Sys2Proof.Proofs.Envelopes

open Sys2Proof.Machine Sys2Proof.Claims

/-! ### The target of a level (R143) -/

/-- Level 255 is the full peak, which is at least 1. -/
theorem target_full (p : Params) : target p 255 = p.envPeak := by
  have hlevel : (255 : Byte).toNat = 255 := rfl
  rw [target, hlevel, Nat.mul_div_cancel _ (by decide), Nat.max_eq_right p.envPeak_pos]

/-- Settles O31, by the bounds of the target and its value at 255. -/
theorem targetOfALevel : Obligations.TargetOfALevel :=
  fun p level _ => ⟨rfl, target_pos p level, target_le p level, target_full p⟩

/-! ### The ramp step (R145) -/

theorem stepSize_of_pos (dist : Nat) {n : Nat} (hn : 0 < n) : stepSize dist n = (dist + n - 1) / n :=
  if_neg (Nat.ne_of_gt hn)

/-- No smaller step covers the distance. -/
theorem stepSize_le_of_covers {dist n m : Nat} (hn : 0 < n) (hm : dist ≤ n * m) : stepSize dist n ≤ m := by
  have hlt : dist + n - 1 < n * (m + 1) := by rw [Nat.mul_succ]; omega
  rw [stepSize_of_pos dist hn]
  exact Nat.le_of_lt_succ (Nat.div_lt_of_lt_mul hlt)

/-- A stage with a count of `n` has `max(n, 1)` samples, and that many steps cover the distance. -/
theorem stepSize_covers_stage (dist n : Nat) : dist ≤ max n 1 * stepSize dist n := by
  rcases Nat.eq_zero_or_pos n with rfl | hn
  · rw [stepSize_zero_count, Nat.zero_max, Nat.one_mul]
  · rw [Nat.max_eq_left hn]
    exact stepSize_covers dist n hn

/-! ### The saturating move (R146) -/

theorem toward_of_le {v g : Nat} (h : v ≤ g) (s : Nat) : toward v g s = min g (v + s) := by
  unfold toward
  split
  · rfl
  · rw [if_neg (by omega)]; omega

theorem toward_of_ge {v g : Nat} (h : g ≤ v) (s : Nat) : toward v g s = max g (v - s) := by
  unfold toward
  rw [if_neg (by omega)]
  split
  · rfl
  · omega

theorem toward_zero (v g : Nat) : toward v g 0 = v := by
  rcases Nat.le_total v g with h | h
  · rw [toward_of_le h]; omega
  · rw [toward_of_ge h]; omega

/-- A move by at least the distance reaches the goal. -/
theorem toward_eq_goal {v g s : Nat} (hup : g - v ≤ s) (hdown : v - g ≤ s) : toward v g s = g := by
  rcases Nat.le_total v g with h | h
  · rw [toward_of_le h]; omega
  · rw [toward_of_ge h]; omega

/-- Two moves are one move by both steps together: a ramp is linear until it is clipped to its goal. -/
theorem toward_toward (v g a b : Nat) : toward (toward v g a) g b = toward v g (a + b) := by
  rcases Nat.le_total v g with h | h
  · rw [toward_of_le h, toward_of_le h, toward_of_le (Nat.min_le_left ..)]; omega
  · rw [toward_of_ge h, toward_of_ge h, toward_of_ge (Nat.le_max_left ..)]; omega

/-- Settles O32, by the least step that covers the distance and by the side of the goal that a move begins on. -/
theorem rampStepAndMove : Obligations.RampStepAndMove := by
  refine ⟨fun dist n => ⟨?count_zero, fun hn => ⟨stepSize_covers dist n hn, fun m => stepSize_le_of_covers hn⟩, ?_⟩,
    fun v g s => ⟨fun h => toward_of_le h.le s, fun h => toward_of_ge h.le s, ?at_goal, ?_, ?_⟩⟩
  case count_zero =>
    rintro rfl
    exact stepSize_zero_count dist
  case at_goal =>
    rintro rfl
    exact toward_self v s
  · exact stepSize_le dist n
  · exact toward_ge_min v g s
  · exact toward_le_max v g s

/-! ### `set_volume` (R150) -/

theorem stepSize_eq_ite (dist n : Nat) : stepSize dist n = if n = 0 then dist else (dist + n - 1) / n := rfl

/-- Settles O34, one branch at a time; the registers hold what the branch computes. -/
theorem setVolumeBranches : Obligations.SetVolumeBranches := by
  rintro p e level y rfl
  refine ⟨fun hpos => ?_, fun h0 hrpt => ?_, fun h0 hrpt => setVolume_repeat p e level h0 hrpt⟩
  · rw [setVolume_trigger p e level hpos]
    obtain ⟨htgt, hslv, hstep⟩ := trigger_values p e level
    refine ⟨htgt, by rw [hslv, htgt], ?_, rfl⟩
    rw [hstep, htgt, stepSize_eq_ite]
  · rw [setVolume_noteOff p e level h0 hrpt]
    exact ⟨(noteOff_rampStep e).trans (stepSize_eq_ite ..), rfl⟩

/-! ### `adjust` by the stage (R155) -/

section
variable {e : Envelope} (p : Params) (en : Bool)

theorem adjust_waiting (h : e.st = .waiting) : e.adjust p en = (e, false) := by
  rw [Envelope.adjust, h]

theorem adjust_attack (h : e.st = .attack) : e.adjust p en = (e.adjustAttack, false) := by
  rw [Envelope.adjust, h]

theorem adjust_decay (h : e.st = .decay) : e.adjust p en = (e.adjustDecay, false) := by
  rw [Envelope.adjust, h]

theorem adjust_sustain (h : e.st = .sustain) : e.adjust p en = (e.adjustSustain en, false) := by
  rw [Envelope.adjust, h]

theorem adjust_release (h : e.st = .release) : e.adjust p en = e.adjustRelease p := by
  rw [Envelope.adjust, h]

end

/-- How a sample of `ATTACK` ends, by the values just written (R156). -/
theorem adjustAttack_ending (e : Envelope) :
    if e.adjustAttack.cntA.toNat = 0 ∧ e.adjustAttack.vol.toNat = e.attackGoal then
      e.adjustAttack.st = .decay ∧ e.adjustAttack.rampStep.toNat = stepSize (e.attackGoal - e.decayGoal) e.cntD.toNat
    else e.adjustAttack.st = e.st ∧ e.adjustAttack.rampStep = e.rampStep := by
  obtain ⟨hvol, hcnt, hend, -⟩ := adjustAttack_cases e
  rwa [hvol, hcnt]

/-- How a sample of `DECAY` ends, by the values just written (R156). -/
theorem adjustDecay_ending (e : Envelope) :
    e.adjustDecay.st =
      if e.adjustDecay.cntD.toNat = 0 ∧ e.adjustDecay.vol.toNat = e.decayGoal then .sustain else e.st := by
  obtain ⟨hvol, hcnt, hend, -⟩ := adjustDecay_cases e
  rw [hvol, hcnt]
  split at hend
  · rwa [if_pos (by assumption)]
  · rwa [if_neg (by assumption)]

/-- Settles O35, stage by stage. -/
theorem adjustOneSample : Obligations.AdjustOneSample := by
  intro p e en y silent h
  refine ⟨fun hst => ?waiting, fun hst => ?attack, fun hst => ?decay, fun hst => ?sustain, fun hst => ?release⟩
  case waiting =>
    rw [adjust_waiting p en hst] at h
    exact Prod.mk.inj h
  case attack =>
    rw [adjust_attack p en hst] at h
    obtain ⟨rfl, rfl⟩ := Prod.mk.inj h
    obtain ⟨hvol, hcnt, -, hframe⟩ := adjustAttack_cases e
    have hend := adjustAttack_ending e
    rw [Envelope.attackGoal, Envelope.decayGoal] at hend
    refine ⟨rfl, hvol, hcnt, fun hdone => ?_, fun hgoing => ?_, hframe⟩
    · rw [if_pos hdone] at hend
      obtain ⟨hdecay, hstep⟩ := hend
      exact ⟨hdecay, fun _ => by rw [hstep, hdone.2]⟩
    · rw [if_neg hgoing, hst] at hend
      exact hend
  case decay =>
    rw [adjust_decay p en hst] at h
    obtain ⟨rfl, rfl⟩ := Prod.mk.inj h
    obtain ⟨hvol, hcnt, -, hframe⟩ := adjustDecay_cases e
    have hend := adjustDecay_ending e
    rw [hst] at hend
    exact ⟨rfl, hvol, hcnt, hend, hframe⟩
  case sustain =>
    rw [adjust_sustain p en hst] at h
    obtain ⟨rfl, rfl⟩ := Prod.mk.inj h
    obtain ⟨hend, hframe⟩ := adjustSustain_cases e en
    refine ⟨rfl, fun hleave => ?_, fun hen hrpt => ?_⟩
    · rw [if_pos hleave] at hend
      obtain ⟨hrelease, hstep⟩ := hend
      rw [hrelease] at hframe
      exact ⟨hrelease, hstep, hframe⟩
    · rwa [if_neg (by simp [hen, hrpt])] at hend
  case release =>
    rw [adjust_release p en hst] at h
    obtain ⟨hvol, hcnt, hend⟩ := adjustRelease_cases p e
    rw [← hvol, ← hcnt, ← h] at hend
    refine ⟨e.releaseMoved, hvol, hcnt, rfl, fun h0 hv hrpt => ?_, fun h0 hv hrpt => ?_, fun hgoing => ?_⟩
    · rw [if_pos ⟨h0, hv⟩, if_pos hrpt] at hend
      rw [setVolume_trigger p _ 255 (by decide)]
      exact Prod.mk.inj hend
    · rw [if_pos ⟨h0, hv⟩, if_neg (by simp [hrpt])] at hend
      exact Prod.mk.inj hend
    · rw [if_neg hgoing] at hend
      exact Prod.mk.inj hend

/-! ### The stage transitions (R141) -/

/-- The three envelopes of a voice are in the stages they were in. -/
def SameStages (x y : Voice) : Prop := y.amp.st = x.amp.st ∧ y.e1.st = x.e1.st ∧ y.e2.st = x.e2.st

theorem sameStages_refl (x : Voice) : SameStages x x := ⟨rfl, rfl, rfl⟩

theorem onOscillator_sameStages (unit : Byte) (f : Oscillator → Oscillator) (x : Voice) :
    SameStages x (onOscillator unit f x) := by
  rcases onOscillator_cases unit f x with ⟨-, h⟩ | ⟨-, h⟩ | ⟨-, h⟩ | ⟨-, h⟩ | ⟨-, h⟩ | ⟨-, h⟩ <;>
    rw [h] <;> exact sameStages_refl x

theorem onModulator_sameStages (unit : Byte) (f : Modulator → Modulator) (x : Voice) :
    SameStages x (onModulator unit f x) := by
  rcases onModulator_cases unit f x with ⟨-, h⟩ | ⟨-, h⟩ | ⟨-, -, h⟩ <;> rw [h] <;> exact sameStages_refl x

/-- A parameter write of an envelope keeps its stage. -/
theorem onEnvelope_sameStages (unit : Byte) {f : Envelope → Envelope} (hf : ∀ e, (f e).st = e.st) (x : Voice) :
    SameStages x (onEnvelope unit f x) := by
  rcases onEnvelope_cases unit f x with ⟨-, h⟩ | ⟨-, h⟩ | ⟨-, h⟩ | ⟨-, h⟩ <;> rw [h]
  · exact ⟨hf _, rfl, rfl⟩
  · exact ⟨rfl, hf _, rfl⟩
  · exact ⟨rfl, rfl, hf _⟩
  · exact sameStages_refl x

/-- Of the commands that write voices, only `ENVVOL` and `NOTEON` change a stage. -/
theorem voiceWrite_sameStages {p : Params} {i : Instr} {voice : Byte} {f : Voice → Voice}
    (hw : voiceWrite p i = some (voice, f)) (henvvol : ∀ v u d, i ≠ .envvol v u d) (hnoteon : ∀ v a d, i ≠ .noteon v a d)
    (x : Voice) : SameStages x (f x) := by
  cases i
  case envvol => exact absurd rfl (henvvol _ _ _)
  case noteon => exact absurd rfl (hnoteon _ _ _)
  all_goals obtain ⟨⟩ := hw
  case oscwave | oscduty => exact onOscillator_sameStages ..
  case modratio | modamt => exact onModulator_sameStages ..
  case envatk | envdec | envsus | envrel | envgain | envrpt => exact onEnvelope_sameStages _ (fun _ => by rfl) x
  case lfoinc | vfreq | vbal | vibdepth | ven => exact sameStages_refl x

/-- A command other than a tick, `RESET`, `ENVVOL` and `NOTEON` changes no stage of any voice. -/
theorem exec_sameStages {i : Instr} {s t : State} (hadvance : i ≠ .advance) (hpull : i ≠ .pull) (hreset : i ≠ .reset)
    (henvvol : ∀ v u d, i ≠ .envvol v u d) (hnoteon : ∀ v a d, i ≠ .noteon v a d) (h : exec i s = .next t)
    (k : Nat) (hk : k < 128) : SameStages s.voices[k] t.voices[k] := by
  rcases exec_cases i s t h with ⟨_, -, -, rfl⟩ | ⟨voice, f, hw, -, rfl⟩ | ⟨-, rfl⟩ | ⟨hi, -⟩ | ⟨-, rfl⟩ | ⟨hi, -⟩ |
    ⟨hi, -⟩ | ⟨_, -, -, rfl⟩ | ⟨-, rfl⟩ | ⟨_, -, rfl⟩
  · exact sameStages_refl _
  · simp only [State.onVoices_voices, onTargets_getElem]
    split
    · exact voiceWrite_sameStages hw henvvol hnoteon _
    · exact sameStages_refl _
  · exact sameStages_refl _
  · exact absurd hi hreset
  · exact sameStages_refl _
  · exact absurd hi hadvance
  · exact absurd hi hpull
  · exact sameStages_refl _
  · exact sameStages_refl _
  · exact sameStages_refl _

/-- The stage after `set_volume` (R150). -/
theorem setVolume_st (p : Params) (e : Envelope) (level : Byte) :
    (e.setVolume p level).st = if 0 < level.toNat then .attack else if e.rpt = false then .release else e.st := by
  rcases Nat.eq_zero_or_pos level.toNat with h0 | hpos
  · rw [if_neg (by omega)]
    cases hrpt : e.rpt with
    | false => rw [setVolume_noteOff p e level h0 hrpt]; rfl
    | true => rw [setVolume_repeat p e level h0 hrpt]; rfl
  · rw [if_pos hpos, setVolume_trigger p e level hpos]; rfl

/-- The stage after a sample of `ATTACK`. -/
theorem adjustAttack_st (e : Envelope) :
    e.adjustAttack.st =
      if e.adjustAttack.cntA.toNat = 0 ∧ e.adjustAttack.vol.toNat = e.attackGoal then .decay else e.st := by
  have hend := adjustAttack_ending e
  split at hend
  · rw [if_pos (by assumption), hend.1]
  · rw [if_neg (by assumption), hend.1]

/-- The stage after a sample of `SUSTAIN` (R157). -/
theorem adjustSustain_st (e : Envelope) (en : Bool) :
    (e.adjustSustain en).st = if en = false ∨ e.rpt = true then .release else e.st := by
  obtain ⟨hend, -⟩ := adjustSustain_cases e en
  split at hend
  · rw [if_pos (by assumption), hend.1]
  · rw [if_neg (by assumption), hend]

/-- The stage after a sample of `RELEASE` (R155, R158), and "just became silent" (R159). -/
theorem adjustRelease_st (p : Params) {e : Envelope} (h : e.st = .release) :
    (e.adjustRelease p).1.st =
      (if e.cntR.toNat - 1 = 0 ∧ toward e.vol.toNat 0 e.rampStep.toNat = 0 then
        (if e.rpt then .attack else .waiting) else .release) ∧
    ((e.adjustRelease p).2 = true ↔ (e.adjustRelease p).1.st = .waiting) := by
  obtain ⟨-, -, hend⟩ := adjustRelease_cases p e
  have hmoved : e.releaseMoved.st = .release := h
  split at hend
  next hdone =>
    rw [if_pos hdone]
    split at hend
    next hrpt => rw [if_pos hrpt, hend]; exact ⟨rfl, by simp [Envelope.trigger]⟩
    next hrpt => rw [if_neg hrpt, hend]; exact ⟨rfl, by simp⟩
  next hgoing => rw [if_neg hgoing, hend]; exact ⟨hmoved, by simp [hmoved]⟩

/-- Settles O36: commands by `exec_sameStages`, `set_volume` by its branches, `adjust` stage by stage. -/
theorem onlyTheStageTransitionsOfTheTable : Obligations.OnlyTheStageTransitionsOfTheTable := by
  refine ⟨⟨rfl, rfl, rfl, rfl, rfl⟩, fun i s t ha hp hr hv hn h => exec_sameStages ha hp hr hv hn h, setVolume_st, ?_⟩
  intro p e en y silent h
  cases hst : e.st with
  | waiting =>
    rw [adjust_waiting p en hst] at h
    obtain ⟨rfl, rfl⟩ := Prod.mk.inj h
    simp [hst]
  | attack =>
    rw [adjust_attack p en hst] at h
    obtain ⟨rfl, rfl⟩ := Prod.mk.inj h
    simpa [hst, Envelope.attackGoal] using adjustAttack_st e
  | decay =>
    rw [adjust_decay p en hst] at h
    obtain ⟨rfl, rfl⟩ := Prod.mk.inj h
    simpa [hst, Envelope.decayGoal] using adjustDecay_ending e
  | sustain =>
    rw [adjust_sustain p en hst] at h
    obtain ⟨rfl, rfl⟩ := Prod.mk.inj h
    simpa [hst] using adjustSustain_st e en
  | release =>
    rw [adjust_release p en hst] at h
    have hend := adjustRelease_st p hst
    rw [← h] at hend
    simpa using hend

/-! ### The length of a ramp stage and its trajectory (R161)

Attack, decay and release run alike: each moves the volume toward its goal and uses up its count. What differs is which
registers hold the two, so these are named here by the stage, and the run is followed once for all three. -/

/-- The stages in which the volume moves: attack, decay and release. -/
def Ramping (e : Envelope) : Prop := e.st = .attack ∨ e.st = .decay ∨ e.st = .release

/-- The goal of the stage the envelope is in. -/
def rampGoal (e : Envelope) : Nat :=
  match e.st with
  | .attack => e.attackGoal
  | .decay => e.decayGoal
  | _ => 0

/-- The samples left in the stage the envelope is in. -/
def rampCount (e : Envelope) : Word :=
  match e.st with
  | .attack => e.cntA
  | .decay => e.cntD
  | _ => e.cntR

/-- The envelope at another volume and count of its stage: what a ramp sample changes as long as the stage goes on. -/
def rampAt (e : Envelope) (vol count : Word) : Envelope :=
  match e.st with
  | .attack => { e with vol := vol, cntA := count }
  | .decay => { e with vol := vol, cntD := count }
  | _ => { e with vol := vol, cntR := count }

/-- The stage that follows a ramp stage in the table of R141. -/
def nextStage (e : Envelope) : Stage :=
  match e.st with
  | .attack => .decay
  | .decay => .sustain
  | _ => if e.rpt then .attack else .waiting

/-- The next sample moves the volume to the goal and uses up the count: the condition of R155 for the end of the stage. -/
def LastSample (e : Envelope) : Prop :=
  (rampCount e).toNat - 1 = 0 ∧ toward e.vol.toNat (rampGoal e) e.rampStep.toNat = rampGoal e

theorem rampGoal_lt (e : Envelope) : rampGoal e < 2 ^ 32 := by
  have hattack := attackGoal_lt e
  have hdecay := decayGoal_lt e
  unfold rampGoal
  split <;> omega

section
variable (e : Envelope) (vol count : Word)

@[simp] theorem rampAt_st : (rampAt e vol count).st = e.st := by
  unfold rampAt
  split <;> rfl

@[simp] theorem rampAt_vol : (rampAt e vol count).vol = vol := by
  unfold rampAt
  split <;> rfl

@[simp] theorem rampAt_rampStep : (rampAt e vol count).rampStep = e.rampStep := by
  unfold rampAt
  split <;> rfl

@[simp] theorem rampAt_rpt : (rampAt e vol count).rpt = e.rpt := by
  unfold rampAt
  split <;> rfl

@[simp] theorem rampGoal_rampAt : rampGoal (rampAt e vol count) = rampGoal e := by
  cases h : e.st <;> simp [rampGoal, rampAt, h, Envelope.attackGoal, Envelope.decayGoal]

@[simp] theorem rampCount_rampAt : rampCount (rampAt e vol count) = count := by
  cases h : e.st <;> simp [rampCount, rampAt, h]

@[simp] theorem rampAt_rampAt (vol' count' : Word) : rampAt (rampAt e vol count) vol' count' = rampAt e vol' count' := by
  cases h : e.st <;> simp [rampAt, h]

theorem rampAt_self : rampAt e e.vol (rampCount e) = e := by
  obtain ⟨st⟩ := e
  cases st <;> rfl

@[simp] theorem nextStage_rampAt : nextStage (rampAt e vol count) = nextStage e := by
  simp [nextStage]

end

/-- A ramp sample that is not the last one of its stage moves the volume and counts. -/
theorem adjust_of_not_lastSample (p : Params) (en : Bool) {e : Envelope} (hr : Ramping e) (hlast : ¬LastSample e) :
    (e.adjust p en).1 =
      rampAt e (BitVec.ofNat 32 (toward e.vol.toNat (rampGoal e) e.rampStep.toNat)) (countDown (rampCount e)) := by
  unfold LastSample at hlast
  rcases hr with h | h | h <;> simp only [rampGoal, rampCount, rampAt, h] at hlast ⊢
  · rw [adjust_attack p en h, Envelope.adjustAttack]
    simp only [countDown_toNat, if_neg hlast, h]
  · rw [adjust_decay p en h, Envelope.adjustDecay]
    simp only [countDown_toNat, if_neg hlast, h]
  · obtain ⟨-, -, hend⟩ := adjustRelease_cases p e
    rw [if_neg hlast] at hend
    rw [adjust_release p en h, hend, Envelope.releaseMoved, h]

/-- The last sample of a ramp stage ends it at its goal. -/
theorem adjust_of_lastSample (p : Params) (en : Bool) {e : Envelope} (hr : Ramping e) (hlast : LastSample e) :
    (e.adjust p en).1.st = nextStage e ∧ (e.adjust p en).1.vol.toNat = rampGoal e := by
  unfold LastSample at hlast
  rcases hr with h | h | h <;> simp only [rampGoal, rampCount, nextStage, h] at hlast ⊢
  · obtain ⟨hvol, -, hend, -⟩ := adjustAttack_cases e
    rw [if_pos hlast] at hend
    rw [adjust_attack p en h]
    exact ⟨hend.1, hvol.trans hlast.2⟩
  · obtain ⟨hvol, -, hend, -⟩ := adjustDecay_cases e
    rw [if_pos hlast] at hend
    rw [adjust_decay p en h]
    exact ⟨hend, hvol.trans hlast.2⟩
  · obtain ⟨hvol, -, hend⟩ := adjustRelease_cases p e
    rw [if_pos hlast] at hend
    rw [adjust_release p en h]
    split at hend
    next hrpt => rw [hend, if_pos hrpt]; exact ⟨rfl, rfl⟩
    next hrpt => rw [hend, if_neg hrpt]; exact ⟨rfl, hvol.trans hlast.2⟩

/-- The moves of a stage together: the volume after `n` samples. -/
def rampVol (e : Envelope) (n : Nat) : Nat := toward e.vol.toNat (rampGoal e) (n * e.rampStep.toNat)

/-- The length of a stage entered with this count. -/
def stageLength (e : Envelope) : Nat := max (rampCount e).toNat 1

theorem rampVol_zero (e : Envelope) : rampVol e 0 = e.vol.toNat := by
  rw [rampVol, Nat.zero_mul, toward_zero]

/-- One sample more is one move more. -/
theorem rampVol_succ (e : Envelope) (n : Nat) :
    rampVol e (n + 1) = toward (rampVol e n) (rampGoal e) e.rampStep.toNat := by
  rw [rampVol, rampVol, toward_toward, Nat.succ_mul]

theorem rampVol_toNat (e : Envelope) (n : Nat) : (BitVec.ofNat 32 (rampVol e n)).toNat = rampVol e n :=
  toward_fits e.vol _ _ (rampGoal_lt e)

/-- What is left of the stage's count after `n` samples. -/
def countAfter (e : Envelope) (n : Nat) : Word := BitVec.ofNat 32 ((rampCount e).toNat - n)

@[simp] theorem countAfter_toNat (e : Envelope) (n : Nat) : (countAfter e n).toNat = (rampCount e).toNat - n := by
  have hlt := (rampCount e).isLt
  rw [countAfter, BitVec.toNat_ofNat]
  omega

theorem countAfter_zero (e : Envelope) : countAfter e 0 = rampCount e :=
  BitVec.eq_of_toNat_eq (countAfter_toNat e 0)

theorem countAfter_succ (e : Envelope) (n : Nat) : countAfter e (n + 1) = countDown (countAfter e n) := by
  apply BitVec.eq_of_toNat_eq
  rw [countDown_toNat, countAfter_toNat, countAfter_toNat, Nat.sub_add_eq]

/-- The envelope after `n` samples of a stage that lasts longer: it has moved and counted, and nothing else. -/
def rampAfter (e : Envelope) (n : Nat) : Envelope := rampAt e (BitVec.ofNat 32 (rampVol e n)) (countAfter e n)

theorem rampAfter_zero (e : Envelope) : rampAfter e 0 = e := by
  rw [rampAfter, rampVol_zero, countAfter_zero, BitVec.ofNat_toNat, BitVec.setWidth_eq, rampAt_self]

theorem ramping_rampAfter {e : Envelope} (hr : Ramping e) (n : Nat) : Ramping (rampAfter e n) := by
  rw [rampAfter, Ramping, rampAt_st]
  exact hr

/-- Before the length of its stage is over, the envelope is `rampAfter`: the count holds the stage open. -/
theorem runEnvelope_ramp (p : Params) (en : Nat → Bool) {e : Envelope} (hr : Ramping e) {n : Nat}
    (hn : n < stageLength e) : runEnvelope p en e n = rampAfter e n := by
  induction n with
  | zero => rw [rampAfter_zero]; rfl
  | succ n ih =>
    have hopen : ¬LastSample (rampAfter e n) := by
      rintro ⟨hcount, -⟩
      rw [rampAfter, rampCount_rampAt, countAfter_toNat] at hcount
      unfold stageLength at hn
      omega
    rw [runEnvelope, ih (by omega), adjust_of_not_lastSample p _ (ramping_rampAfter hr n) hopen]
    simp only [rampAfter, rampAt_rampAt, rampAt_vol, rampGoal_rampAt, rampAt_rampStep, rampCount_rampAt, rampVol_toNat,
      rampVol_succ, countAfter_succ]

/-- If the moves of the whole stage reach the goal, the sample that uses up the count is the last one. -/
theorem lastSample_rampAfter {e : Envelope} {n : Nat} (hn : n + 1 = stageLength e)
    (hreach : rampVol e (stageLength e) = rampGoal e) : LastSample (rampAfter e n) := by
  rw [← hn, rampVol_succ] at hreach
  unfold stageLength at hn
  refine ⟨?_, ?_⟩
  · rw [rampAfter, rampCount_rampAt, countAfter_toNat]
    omega
  · simpa only [rampAfter, rampAt_vol, rampGoal_rampAt, rampAt_rampStep, rampVol_toNat] using hreach

/-- The end of a ramp stage whose moves reach the goal: it comes with the stage's length, at the goal (R161). -/
theorem runEnvelope_stage_end (p : Params) (en : Nat → Bool) {e : Envelope} (hr : Ramping e)
    (hreach : rampVol e (stageLength e) = rampGoal e) :
    (runEnvelope p en e (stageLength e)).st = nextStage e ∧
    (runEnvelope p en e (stageLength e)).vol.toNat = rampGoal e := by
  obtain ⟨n, hn⟩ : ∃ n, n + 1 = stageLength e := ⟨stageLength e - 1, by unfold stageLength; omega⟩
  have hend := adjust_of_lastSample p (en n) (ramping_rampAfter hr n) (lastSample_rampAfter hn hreach)
  rw [← hn, runEnvelope, runEnvelope_ramp p en hr (by omega)]
  simpa only [rampAfter, nextStage_rampAt, rampGoal_rampAt] using hend

/-- The volume on each sample of a ramp stage whose moves reach the goal (R161). -/
theorem runEnvelope_stage_vol (p : Params) (en : Nat → Bool) {e : Envelope} (hr : Ramping e)
    (hreach : rampVol e (stageLength e) = rampGoal e) {n : Nat} (hn : n ≤ stageLength e) :
    (runEnvelope p en e n).vol.toNat = rampVol e n := by
  rcases Nat.lt_or_eq_of_le hn with hlt | rfl
  · rw [runEnvelope_ramp p en hr hlt, rampAfter, rampAt_vol, rampVol_toNat]
  · exact (runEnvelope_stage_end p en hr hreach).2.trans hreach.symm

/-- The stage before its length is over (R161). -/
theorem runEnvelope_stage_st (p : Params) (en : Nat → Bool) {e : Envelope} (hr : Ramping e) {n : Nat}
    (hn : n < stageLength e) : (runEnvelope p en e n).st = e.st := by
  rw [runEnvelope_ramp p en hr hn, rampAfter, rampAt_st]

/-- The ramp step of R145, whichever side of the goal the stage is entered on, makes the moves of the stage reach it. -/
theorem rampVol_stageLength {e : Envelope} {dist : Nat} (hstep : e.rampStep.toNat = stepSize dist (rampCount e).toNat)
    (hup : rampGoal e - e.vol.toNat ≤ dist) (hdown : e.vol.toNat - rampGoal e ≤ dist) :
    rampVol e (stageLength e) = rampGoal e := by
  have hcover := stepSize_covers_stage dist (rampCount e).toNat
  rw [← hstep] at hcover
  exact toward_eq_goal (hup.trans hcover) (hdown.trans hcover)

/-- Settles O38, by the ramp of each of the three stages. -/
theorem stageDurationsAndTrajectories : Obligations.StageDurationsAndTrajectories := by
  refine ⟨fun p en e hst hvol hstep => ?attack, fun p en e hst hvol hstep => ?decay, fun p en e hst hstep => ?release⟩
  case attack =>
    have hr : Ramping e := .inl hst
    have hgoal : rampGoal e = e.tgt.toNat * 2 ^ 16 := by rw [rampGoal, hst]; rfl
    have hcount : rampCount e = e.cntA := by rw [rampCount, hst]
    have hnext : nextStage e = .decay := by rw [nextStage, hst]
    have hreach : rampVol e (stageLength e) = rampGoal e :=
      rampVol_stageLength (by rw [hstep, hcount]) (by omega) (by omega)
    have hramp (n : Nat) : rampVol e n = min (rampGoal e) (n * e.rampStep.toNat) := by
      rw [rampVol, hvol, toward_of_le (Nat.zero_le _), Nat.zero_add]
    rw [← hcount, ← hgoal, ← hnext, ← hst]
    exact ⟨fun n hn => ⟨(runEnvelope_stage_vol p en hr hreach hn).trans (hramp n), runEnvelope_stage_st p en hr⟩,
      runEnvelope_stage_end p en hr hreach⟩
  case decay =>
    have hr : Ramping e := .inr (.inl hst)
    have hgoal : rampGoal e = e.slv.toNat * 2 ^ 16 := by rw [rampGoal, hst]; rfl
    have hcount : rampCount e = e.cntD := by rw [rampCount, hst]
    have hnext : nextStage e = .sustain := by rw [nextStage, hst]
    have hreach : rampVol e (stageLength e) = rampGoal e :=
      rampVol_stageLength (by rw [hstep, hcount]) (by omega) (by omega)
    have hramp (n : Nat) : rampVol e n = max (rampGoal e) (e.vol.toNat - n * e.rampStep.toNat) := by
      rw [rampVol, toward_of_ge (hgoal.trans_le hvol)]
    rw [← hcount, ← hgoal, ← hnext, ← hst]
    exact ⟨fun n hn => ⟨(runEnvelope_stage_vol p en hr hreach hn).trans (hramp n), runEnvelope_stage_st p en hr⟩,
      runEnvelope_stage_end p en hr hreach⟩
  case release =>
    have hr : Ramping e := .inr (.inr hst)
    have hgoal : rampGoal e = 0 := by rw [rampGoal, hst]
    have hcount : rampCount e = e.cntR := by rw [rampCount, hst]
    have hnext : nextStage e = if e.rpt then .attack else .waiting := by rw [nextStage, hst]
    have hreach : rampVol e (stageLength e) = rampGoal e :=
      rampVol_stageLength (by rw [hstep, hcount]) (by omega) (by omega)
    have hramp (n : Nat) : rampVol e n = e.vol.toNat - n * e.rampStep.toNat := by
      rw [rampVol, hgoal, toward_of_ge (Nat.zero_le _), Nat.zero_max]
    rw [← hcount, ← hnext, ← hst]
    exact ⟨fun n hn => ⟨(runEnvelope_stage_vol p en hr hreach hn.le).trans (hramp n), runEnvelope_stage_st p en hr hn⟩,
      hgoal ▸ runEnvelope_stage_end p en hr hreach⟩

end Sys2Proof.Proofs.Envelopes

/-! The family of spec/42_modulator_scaler.md: the phase-modulation scaler (R184). -/

namespace Sys2Proof.Proofs.Scaler

open Sys2Proof.Machine

/-! ### The phase-modulation scaler (R184) -/

/-- The offset as a number: `asr` is the flooring quotient, and the pattern of it is its residue (R11). -/
theorem pmscale_toNat (w : Int) (d a : Nat) :
    ((pmscale w d a).toNat : Int) = (w * (d : Int) * (a : Int) / 2 ^ 7) % 2 ^ 32 :=
  wordOfInt_toNat _

/-- A sample, a depth and an amount in their ranges have a product of 48 signed bits (R184, R190). -/
theorem abs_pmscale_product_lt {w : Int} {d a : Nat} (hw : |w| ≤ 32767) (hd : d ≤ 65536) (ha : a ≤ 65280) :
    |w * (d : Int) * (a : Int)| < 2 ^ 47 :=
  calc |w * (d : Int) * (a : Int)|
    _ = |w| * (d : Int) * (a : Int) := by rw [abs_mul, abs_mul, Nat.abs_cast, Nat.abs_cast]
    _ ≤ 32767 * 65536 * 65280 := by gcongr <;> exact_mod_cast ‹_›
    _ < 2 ^ 47 := by norm_num

/-- At full depth and amount 1.0 nothing is lost to the shift: the product is a multiple of 2^7. -/
theorem pmscale_fullDepth (w : Int) : pmscale w 65536 256 = wordOfInt (w * 2 ^ 17) := by
  have hshift : asr (w * (65536 : Nat) * (256 : Nat)) 7 = w * 2 ^ 17 := by
    rw [asr]
    omega
  rw [pmscale, hshift]

/-- Settles O42, by the value of the offset, the size of the product and the shift at full depth. -/
theorem phaseModulationScaler : Obligations.PhaseModulationScaler :=
  ⟨pmscale_toNat, fun _ _ _ hlo hhi hd ha => abs_lt.mp (abs_pmscale_product_lt (abs_le.mpr ⟨hlo, hhi⟩) hd ha),
    pmscale_fullDepth⟩

end Sys2Proof.Proofs.Scaler

/-! The family of spec/43_voice.md: the balance mix (R203), the sample of a voice (R204) and its tick (R206). -/

namespace Sys2Proof.Proofs.Voices

open Sys2Proof.Machine Sys2Proof.Claims

/-! ### The balance mix (R203) -/

/-- The mix of two samples as the flooring quotient that `asr` is (R11). -/
theorem balanceMix_eq (c1 c2 : Int) (bal : Byte) :
    balanceMix c1 c2 bal = (c1 * (128 - (bal.toNat : Int)) + c2 * (bal.toNat : Int)) / 2 ^ 7 := rfl

theorem balanceMix_zero (c1 c2 : Int) : balanceMix c1 c2 0 = c1 := by
  have hbal : ((0 : Byte).toNat : Int) = 0 := rfl
  rw [balanceMix_eq, hbal]
  omega

theorem balanceMix_full (c1 c2 : Int) : balanceMix c1 c2 128 = c2 := by
  have hbal : ((128 : Byte).toNat : Int) = 128 := rfl
  rw [balanceMix_eq, hbal]
  omega

theorem balanceMix_half (c1 c2 : Int) : balanceMix c1 c2 64 = (c1 + c2) / 2 := by
  have hbal : ((64 : Byte).toNat : Int) = 64 := rfl
  rw [balanceMix_eq, hbal]
  omega

/-- The weights `128 - BAL` and `BAL` are not negative and have the sum 128, so the mix stays in every interval that holds
both carriers. -/
theorem balanceMix_mem {c1 c2 lo hi : Int} {bal : Byte} (hbal : bal.toNat ≤ 128) (hlo1 : lo ≤ c1) (hhi1 : c1 ≤ hi)
    (hlo2 : lo ≤ c2) (hhi2 : c2 ≤ hi) : lo ≤ balanceMix c1 c2 bal ∧ balanceMix c1 c2 bal ≤ hi := by
  have hweight1 : (0 : Int) ≤ 128 - (bal.toNat : Int) := by omega
  have hweight2 : (0 : Int) ≤ (bal.toNat : Int) := Int.natCast_nonneg _
  have hlow : lo * 128 ≤ c1 * (128 - (bal.toNat : Int)) + c2 * (bal.toNat : Int) :=
    calc lo * 128
      _ = lo * (128 - (bal.toNat : Int)) + lo * (bal.toNat : Int) := by ring
      _ ≤ _ := by gcongr
  have hhigh : c1 * (128 - (bal.toNat : Int)) + c2 * (bal.toNat : Int) ≤ hi * 128 :=
    calc c1 * (128 - (bal.toNat : Int)) + c2 * (bal.toNat : Int)
      _ ≤ hi * (128 - (bal.toNat : Int)) + hi * (bal.toNat : Int) := by gcongr
      _ = hi * 128 := by ring
  rw [balanceMix_eq]
  omega

/-- Settles O48, by the values at the two ends and in the middle and the bound of a weighted mean. It is protected because
the model's function has its name. -/
protected theorem balanceMix : Obligations.BalanceMix := fun c1 c2 bal =>
  ⟨balanceMix_eq c1 c2 bal, balanceMix_zero c1 c2, balanceMix_full c1 c2, balanceMix_half c1 c2, balanceMix_mem⟩

/-! ### The sample of a voice (R204) -/

/-- An oscillator that nothing moves is read at its own phase. -/
theorem sampleAt_zero (o : Oscillator) : o.sampleAt 0 = waveSample o.wave o.phase o.duty := by
  rw [Oscillator.sampleAt, BitVec.ofNat_eq_ofNat, BitVec.add_zero]

theorem pm1_eq (p : Params) (x : Voice) :
    x.pm1 p = pmscale (waveSample x.m2.osc.wave x.m2.osc.phase x.m2.osc.duty) (x.e2.depth p) x.m2.amountQ := by
  rw [Voice.pm1, sampleAt_zero]

/-- Settles O46, by the definition of each signal on the path from modulator 2 to the sample: only modulator 2 is read at
its own phase. -/
theorem outputOfAVoice : Obligations.OutputOfAVoice := by
  rintro p x w2 pm1 w1 pmc c1 c2 mix rfl hpm1 rfl hpmc rfl rfl rfl
  obtain rfl : pm1 = x.pm1 p := hpm1.trans (pm1_eq p x).symm
  obtain rfl : pmc = x.pmc p := hpmc
  rfl

/-! ### One tick of a voice (R206) -/

/-- `phase_step` adds the increment and the extra one modulo 2^32 and keeps the other registers (R111). -/
theorem phaseStepped_phaseStep (o : Oscillator) (extra : Int) : PhaseStepped o (o.phaseStep extra) extra :=
  ⟨rfl, phaseStep_toNat o extra⟩

/-- The vibrato's extra increment of a voice, from its LFO at the phase before the tick (R201, R202). -/
theorem extra_eq (x : Voice) :
    x.extra = (x.c1.inc.toNat : Int) *
      (waveSample x.lfo.wave x.lfo.phase x.lfo.duty * (x.vibdepth.toNat : Int) * 2480870 / 2 ^ 23) / 2 ^ 32 := by
  rw [Voice.extra, sampleAt_zero]
  rfl

/-- `voice_output` does not read the lookahead buffer, so filling it leaves the voice's sample as it is (R204, R206). -/
theorem output_fillBuffer (p : Params) (x : Voice) : (x.fillBuffer p).output p = x.output p := rfl

/-- After a tick the buffer holds the sample of the state just written (R206, R210). -/
theorem advance_vbuf_eq_output (p : Params) (x : Voice) : (x.advance p).vbuf = wordOfInt ((x.advance p).output p) := by
  rw [Voice.advance_vbuf, Voice.advance, output_fillBuffer]

/-- `EN` survives a tick unless the amplitude envelope just became silent (R208). -/
theorem advance_en_eq_and (p : Params) (x : Voice) : (x.advance p).en = (x.en && !(x.amp.adjust p x.en).2) := by
  rw [Voice.advance_en]
  cases (x.amp.adjust p x.en).2 <;> simp

/-- Settles O45, by the value of each of the voice's fields after the tick. -/
theorem tickOfAVoice : Obligations.TickOfAVoice := by
  rintro p x y r extra rfl rfl hextra
  rw [← extra_eq] at hextra
  subst hextra
  exact ⟨phaseStepped_phaseStep _ _, phaseStepped_phaseStep _ _, phaseStepped_phaseStep _ _,
    phaseStepped_phaseStep _ _, rfl, phaseStepped_phaseStep _ _, rfl,
    x.advance_amp p, x.advance_e1 p, x.advance_e2 p, advance_en_eq_and p x, advance_vbuf_eq_output p x,
    x.advance_bal p, x.advance_vibdepth p⟩

end Sys2Proof.Proofs.Voices

/-! The family of spec/44_sample_system.md: the sample commands `PEEK`, `ADVANCE` and `PULL` (R231 to R237) and the system
commands `MASTER`, `NOP`, `RDSTAT` and `RDERR` (R240 to R246). -/

namespace Sys2Proof.Proofs.System

open Sys2Proof.Machine Sys2Proof.Claims Sys2Proof.Proofs.Rules Sys2Proof.Proofs.Waves Sys2Proof.Proofs.Envelopes

/-! ### The sample (R231) -/

/-- The mixed sample by slots: the list's sum is the sum over the 128 slots, and `asr` the flooring quotient (R11). -/
theorem mixOut_eq_sampleOf (s : State) : s.mixOut = sampleOf s := by
  rw [State.mixOut, State.mixSum_eq]
  rfl

theorem sampleWord_eq (s : State) : s.sampleWord = BitVec.ofInt 32 (sampleOf s) := by
  rw [State.sampleWord, mixOut_eq_sampleOf]
  rfl

/-- With no voice enabled there is nothing to mix. -/
theorem mixSum_of_disabled {s : State} (h : ∀ k (hk : k < 128), (s.voices[k]).en = false) : s.mixSum = 0 := by
  rw [State.mixSum_eq]
  refine Finset.sum_eq_zero fun k _ => ?_
  rw [Voice.contribution, h k.val k.isLt]
  rfl

theorem reset_voices_getElem (k : Nat) (h : k < 128) : State.reset.voices[k] = Voice.reset :=
  resetVoices_getElem k h

theorem mixOut_reset : State.reset.mixOut = 0 := by
  have hsum : State.reset.mixSum = 0 := mixSum_of_disabled fun k hk => by rw [reset_voices_getElem k hk]; rfl
  rw [State.mixOut, hsum, Int.zero_mul]
  rfl

/-! ### A tick that changes nothing (R235) -/

/-- An oscillator of increment 0 stands still. -/
theorem phaseStep_of_inc_zero {o : Oscillator} (h : o.inc = 0) : o.phaseStep 0 = o := by
  have hphase : wordOfInt ((o.phase.toNat : Int) + (o.inc.toNat : Int) + 0) = o.phase := by
    simp [h, wordOfInt]
  rw [Oscillator.phaseStep, hphase]

/-- The vibrato scales carrier 1's increment, so it adds nothing to an increment of 0 (R202). -/
theorem extra_of_inc_zero {x : Voice} (h : x.c1.inc = 0) : x.extra = 0 := by
  simp [Voice.extra, h, vibratoExtra, asr]

theorem stepPhases_of_inc_zero {x : Voice} (hc1 : x.c1.inc = 0) (hc2 : x.c2.inc = 0) (hlfo : x.lfo.inc = 0)
    (hm1 : x.m1.osc.inc = 0) (hm2 : x.m2.osc.inc = 0) : x.stepPhases = x := by
  simp only [Voice.stepPhases, extra_of_inc_zero hc1, phaseStep_of_inc_zero, hc1, hc2, hlfo, hm1, hm2]

/-- Envelopes that wait do not move, and none of them just became silent. -/
theorem stepEnvelopes_of_waiting (p : Params) {x : Voice} (hamp : x.amp.st = .waiting) (he1 : x.e1.st = .waiting)
    (he2 : x.e2.st = .waiting) : x.stepEnvelopes p = x := by
  simp only [Voice.stepEnvelopes, adjust_waiting p _ hamp, adjust_waiting p _ he1, adjust_waiting p _ he2]
  rfl

/-- A silent amplitude envelope silences the voice, whatever its carriers are (R204). -/
theorem output_of_vol_zero (p : Params) {x : Voice} (h : x.amp.vol = 0) : x.output p = 0 := by
  simp [Voice.output, Envelope.eff, Envelope.volInt, h]

theorem fillBuffer_of_silent (p : Params) {x : Voice} (hvol : x.amp.vol = 0) (hbuf : x.vbuf = 0) :
    x.fillBuffer p = x := by
  have hword : wordOfInt 0 = x.vbuf := hbuf.symm
  rw [Voice.fillBuffer, output_of_vol_zero p hvol, hword]

/-- A voice at its reset values is left as it is by each of the three groups of R206. -/
theorem advance_reset (p : Params) : Voice.reset.advance p = Voice.reset := by
  rw [Voice.advance, stepPhases_of_inc_zero rfl rfl rfl rfl rfl, stepEnvelopes_of_waiting p rfl rfl rfl,
    fillBuffer_of_silent p rfl rfl]

/-- A tick is the tick of each voice, so it changes nothing if it changes no voice. -/
theorem tick_of_voices_fixed {s : State} (h : ∀ k (hk : k < 128), (s.voices[k]).advance s.params = s.voices[k]) :
    s.tick = s := by
  have hvoices : mapVoices (fun _ x => x.advance s.params) s.voices = s.voices :=
    Vector.ext fun k hk => (mapVoices_getElem _ _ k hk).trans (h k hk)
  rw [State.tick, hvoices]

theorem tick_reset : State.reset.tick = State.reset :=
  tick_of_voices_fixed fun k hk => by rw [reset_voices_getElem k hk, advance_reset]

/-! ### `ADVANCE`, `PULL` and `PEEK` (R233, R235, R237) -/

theorem tick_voices_getElem (s : State) (k : Nat) (h : k < 128) :
    s.tick.voices[k] = (s.voices[k]).advance s.params :=
  mapVoices_getElem _ s.voices k h

/-- Settles O15: a tick writes the voice file alone, slot by slot, and leaves the voices of the reset state as they are. -/
theorem advanceTicksEveryVoice : Obligations.AdvanceTicksEveryVoice := by
  refine ⟨commandRule_of_effect (by decide) rfl (fun _ _ _ _ => rfl) fun _ _ _ _ s _ =>
    ⟨s.tick, rfl, rfl, tick_voices_getElem s⟩, ?_⟩
  exact congrArg Host.Outcome.next tick_reset

/-- A response and a tick do not interfere: the tick reads no response, the response no voice. -/
theorem tick_respond (s : State) (r : Word) : (s.respond r).tick = s.tick.respond r := rfl

theorem exec_pull (s : State) : exec .pull s = .next (s.tick.respond s.sampleWord) := rfl

theorem execAll_peek_advance (s : State) :
    execAll [.peek, .advance] s = .next ((s.respond s.sampleWord).tick) := rfl

/-- Settles O16: the response is the sample of the state before the tick, and responding first or last is the same. -/
theorem pullAnswersThenTicks : Obligations.PullAnswersThenTicks := by
  refine ⟨commandRule_of_effect (by decide) rfl (fun _ _ _ _ => rfl) fun _ _ _ _ s _ =>
    ⟨_, exec_pull s, ?_, tick_voices_getElem s⟩, fun s => ?_, _, exec_pull State.reset, ?_⟩
  · rw [← sampleWord_eq]
    rfl
  · rw [exec_pull, execAll_peek_advance, tick_respond]
  · rw [State.sampleWord, mixOut_reset]
    rfl

/-- Settles O14: `PEEK` appends the sample to the responses. -/
theorem peekAnswersTheMix : Obligations.PeekAnswersTheMix := by
  refine ⟨commandRule_of_effect (by decide) rfl (fun _ _ _ _ => rfl) fun _ _ _ _ s _ =>
    ⟨s.respond s.sampleWord, rfl, ?_⟩, ?_⟩
  · rw [sampleWord_eq]
    rfl
  · exact (mixOut_eq_sampleOf _).symm.trans mixOut_reset

/-! ### `NOP` and `MASTER` (R243, R240) -/

/-- Settles O12: `NOP` answers the state it is given. -/
theorem nopChangesNothing : Obligations.NopChangesNothing :=
  commandRule_of_effect (by decide) rfl (fun _ _ _ _ => rfl) fun _ _ _ _ s _ => ⟨s, rfl, rfl⟩

theorem exec_master (data : Word) (s : State) :
    exec (.master data) s = .next { s with master := BitVec.ofNat 8 (min data.toNat 128) } := rfl

/-- Settles O19: the clamp of `MASTER` is `min(d, 128)`. -/
theorem masterStoresTheVolume : Obligations.MasterStoresTheVolume :=
  commandRule_of_effect (by decide) rfl (fun _ _ _ _ => rfl) fun _ _ _ data s _ => ⟨_, exec_master data s, rfl⟩

/-! ### `RDSTAT` and `RDERR` (R245, R246) -/

theorem stage_code_eq (st : Stage) : st.code = stageCode st := by
  cases st <;> rfl

/-- A stage code fits its three bits of the status word (R141). -/
theorem stage_code_le (st : Stage) : st.code ≤ 4 := by
  cases st <;> decide

theorem bitOf_le (b : Bool) : bitOf b ≤ 1 := by
  cases b <;> decide

/-- Each of the four values that `RDSTAT` reads fits its field of the status word. -/
theorem status_fields_fit (x : Voice) :
    bitOf x.en ≤ 1 ∧ x.amp.st.code ≤ 4 ∧ x.e1.st.code ≤ 4 ∧ x.e2.st.code ≤ 4 :=
  ⟨bitOf_le x.en, stage_code_le x.amp.st, stage_code_le x.e1.st, stage_code_le x.e2.st⟩

/-- The status word loses nothing to its 32 bits. -/
theorem statusWord_toNat (x : Voice) : (statusWord x).toNat =
    bitOf x.en + x.amp.st.code * 2 + x.e1.st.code * 16 + x.e2.st.code * 128 := by
  have hfit := status_fields_fit x
  rw [statusWord, BitVec.toNat_ofNat, Nat.mod_eq_of_lt (by omega)]

/-- The four fields of the status word do not overlap, and above them it is zero. -/
theorem statusWord_fields (x : Voice) :
    ((statusWord x).extractLsb' 0 1).toNat = bitOf x.en ∧
    ((statusWord x).extractLsb' 1 3).toNat = x.amp.st.code ∧
    ((statusWord x).extractLsb' 4 3).toNat = x.e1.st.code ∧
    ((statusWord x).extractLsb' 7 3).toNat = x.e2.st.code ∧
    ((statusWord x).extractLsb' 10 22).toNat = 0 := by
  have hfit := status_fields_fit x
  simp only [phaseField_toNat, statusWord_toNat]
  omega

theorem exec_rdstat {voice : Byte} (s : State) (hwf : WellFormed (.rdstat voice) = true) :
    exec (.rdstat voice) s = .next (s.respond (statusWord (s.voiceAt voice))) := by
  have hbits : voiceReadErr voice = 0 := (operandErr_eq_zero (.rdstat voice)).mpr hwf
  change accepted (voiceReadErr voice) s _ = _
  rw [hbits, accepted_zero]

/-- Settles O17, by the fields of the status word of the voice that the operand names. -/
theorem rdstatAnswersStages : Obligations.RdstatAnswersStages := by
  refine commandRule_of_effect (by decide) rfl (fun _ _ _ _ => rfl) fun voice _ _ _ s hwf =>
    ⟨_, exec_rdstat s hwf, _, rfl, fun h => ?_⟩
  rw [State.voiceAt_eq s voice h]
  simp only [← stage_code_eq]
  exact statusWord_fields _

theorem errWord_toNat (err : ErrBits) : (errWord err).toNat = err.toNat :=
  BitVec.toNat_setWidth_of_le (by decide)

theorem exec_rderr (s : State) : exec .rderr s = .next (s.respond (errWord s.err)) := rfl

/-- Settles O18: the response is `ERR` widened, and nothing else is written. -/
theorem rderrAnswersErr : Obligations.RderrAnswersErr :=
  commandRule_of_effect (by decide) rfl (fun _ _ _ _ => rfl) fun _ _ _ _ s _ =>
    ⟨_, exec_rderr s, errWord s.err, errWord_toNat s.err, rfl⟩

end Sys2Proof.Proofs.System

/-! The family of spec/70_reset_and_hazards.md: the reset values of every state element (R281). -/

namespace Sys2Proof.Proofs.Reset

open Sys2Proof.Machine Sys2Proof.Claims

/-! ### The reset values, part by part (R281) -/

theorem oscillatorAtReset_reset : OscillatorAtReset Oscillator.reset :=
  ⟨rfl, rfl, rfl, rfl⟩

theorem modulatorAtReset_reset : ModulatorAtReset Modulator.reset :=
  ⟨oscillatorAtReset_reset, rfl, rfl, rfl, rfl⟩

theorem envelopeAtReset_reset : EnvelopeAtReset Envelope.reset :=
  ⟨rfl, rfl, rfl, rfl, rfl, rfl, rfl, rfl, rfl, rfl, rfl, rfl, rfl, rfl⟩

theorem voiceAtReset_reset : VoiceAtReset Voice.reset :=
  ⟨oscillatorAtReset_reset, oscillatorAtReset_reset, oscillatorAtReset_reset,
    modulatorAtReset_reset, modulatorAtReset_reset,
    envelopeAtReset_reset, envelopeAtReset_reset, envelopeAtReset_reset, rfl, rfl, rfl, rfl⟩

/-! ### The reset of the whole state (R32, R244) -/

/-- Whatever the state was, each of the 128 slots, `MASTER` and `ERR` then hold their reset values. -/
theorem elementsAtReset_resetElements (s : State) : ElementsAtReset s.resetElements := by
  refine ⟨fun k hk => ?_, rfl, rfl⟩
  rw [State.resetElements_voices, resetVoices_getElem k hk]
  exact voiceAtReset_reset

/-- Resetting the elements once more changes nothing of the state after reset. -/
theorem resetElements_reset : State.reset.resetElements = State.reset := rfl

theorem exec_reset (s : State) : exec .reset s = .next s.resetElements := rfl

/-- Settles O9: the state after reset and the one after `RESET` both hold what `State.resetElements` writes, and that writes
no parameter. -/
theorem resetValuesOfEveryElement : Obligations.ResetValuesOfEveryElement :=
  ⟨resetElements_reset ▸ elementsAtReset_resetElements State.reset, fun s =>
    ⟨s.resetElements, exec_reset s, elementsAtReset_resetElements s, s.resetElements_params⟩⟩

end Sys2Proof.Proofs.Reset

/-! The other statements of spec/30_encoding.md and of spec/20_memory.md: encode and decode are inverse to each other (R81 to
R92), the bytes of a transport (R62, R63), the taking of a word (R66). -/

namespace Sys2Proof.Proofs.Codec

set_option Elab.async false

open Sys2Proof.Machine Sys2Proof.Claims Sys2Proof.Proofs.Encoding

/-! ### Decode of encode (R81, R90) -/

/-- Every command's word leaves the fields its format does not use at zero (R82). -/
theorem encode_fitsFormat (i : Instr) : Laws.FitsFormat.Statement i := by
  open Laws.FitsFormat in
  cases i
  exacts [nop, reset, peek, advance, pull, rdstat _, rderr, master _, oscwave _ _ _, oscduty _ _ _, lfoinc _ _, vfreq _ _,
    envvol _ _ _, envatk _ _ _, envdec _ _ _, envsus _ _ _, envrel _ _ _, envgain _ _ _, envrpt _ _ _, modratio _ _ _ _,
    modamt _ _ _ _, vbal _ _, vibdepth _ _, ven _ _, noteon _ _ _]

/-- The opcode map reads a command back from the fields of its word (R90). -/
theorem instrOf_encode (i : Instr) :
    instrOf (opField (encode i)) (voiceField (encode i)) (unitField (encode i)) (auxField (encode i))
      (dataField (encode i)) = some i := by
  cases i <;> simp only [encode, opField_packWord, voiceField_packWord, unitField_packWord, auxField_packWord,
    dataField_packWord] <;> rfl

/-- A word is a command exactly when the opcode map reads that command from its fields and the unused ones are zero. -/
theorem decode_eq_instr_iff (w : CmdWord) (i : Instr) :
    decode w = .instr i ↔
      instrOf (opField w) (voiceField w) (unitField w) (auxField w) (dataField w) = some i ∧
      reservedZero (formatOf i) (voiceField w) (unitField w) (auxField w) (dataField w) = true := by
  unfold decode
  split
  next hnone => simp [hnone]
  next j hsome =>
    rw [hsome, Option.some.injEq]
    split
    next hz => rw [Decoded.instr.injEq]; exact ⟨fun hji => ⟨hji, hji ▸ hz⟩, And.left⟩
    next hz => exact ⟨nofun, fun ⟨hji, hz'⟩ => absurd (hji ▸ hz') hz⟩

/-- Settles O1: the opcode map gives the command back, and its word fits its format. -/
theorem decodeOfEncodeIsTheCommand : Obligations.DecodeOfEncodeIsTheCommand := fun i =>
  (decode_eq_instr_iff _ i).mpr ⟨instrOf_encode i, (encode_fitsFormat i).2⟩

/-! ### Encode of decode (R89) -/

/-- A word that decodes to a command is that command's word. -/
theorem encode_of_decode {w : CmdWord} {i : Instr} (h : decode w = .instr i) : encode i = w := by
  obtain ⟨hinstr, hzero⟩ := (decode_eq_instr_iff w i).mp h
  rw [encode_of_instrOf hinstr hzero, packWord_fields]

/-- Settles O2: both words are the command's one encoding. -/
theorem acceptedWordsEncodeBack : Obligations.AcceptedWordsEncodeBack :=
  ⟨fun _ _ h => encode_of_decode h, fun _ _ _ h h' => (encode_of_decode h).symm.trans (encode_of_decode h')⟩

theorem decode_of_encode {w : CmdWord} {i : Instr} (h : encode i = w) : decode w = .instr i :=
  h ▸ decodeOfEncodeIsTheCommand i

/-- Settles O3: each of the words is the encoding of its command. -/
theorem wordsOfTheSpecDecode : Obligations.WordsOfTheSpecDecode :=
  ⟨decode_of_encode (by decide), decode_of_encode (by decide), decode_of_encode (by decide), decode_of_encode (by decide),
    decode_of_encode (by decide), decode_of_encode (by decide), decode_of_encode (by decide)⟩

/-! ### Bytes of a transport (R62, R63) -/

theorem byte_toNat {n : Nat} (w : BitVec n) (start : Nat) : (w.extractLsb' start 8).toNat = w.toNat / 2 ^ start % 2 ^ 8 := by
  rw [BitVec.extractLsb'_toNat, Nat.shiftRight_eq_div_pow]

/-- The eight bytes of a command word, least significant first, give the word back. -/
theorem wordOfBytes_bytesOfWord (w : CmdWord) : wordOfBytes (bytesOfWord w) = some w := by
  have hlt := w.isLt
  refine congrArg some (BitVec.eq_of_toNat_eq ?_)
  simp only [append_toNat, byte_toNat]
  omega

/-- The four bytes of a response, least significant first, give the response back. -/
theorem responseOfBytes_responseBytes (r : Word) : responseOfBytes (responseBytes r) = some r := by
  have hlt := r.isLt
  refine congrArg some (BitVec.eq_of_toNat_eq ?_)
  simp only [append_toNat, byte_toNat]
  omega

theorem bytesOfWord_getElem? (w : CmdWord) {j : Nat} (hj : j < 8) :
    (bytesOfWord w)[j]? = some (w.extractLsb' (8 * j) 8) := by
  interval_cases j <;> rfl

theorem responseBytes_getElem? (r : Word) {j : Nat} (hj : j < 4) :
    (responseBytes r)[j]? = some (r.extractLsb' (8 * j) 8) := by
  interval_cases j <;> rfl

/-- A partial word is no command (R63). -/
theorem wordOfBytes_of_length_ne {bytes : List Byte} (h : bytes.length ≠ 8) : wordOfBytes bytes = none := by
  unfold wordOfBytes
  split
  · exact absurd rfl h
  · rfl

/-- Settles O8: each byte by its place, and the bytes together by the number they stand for. -/
theorem transportIsLittleEndian : Obligations.TransportIsLittleEndian :=
  ⟨fun w => ⟨rfl, fun _ hj => bytesOfWord_getElem? w hj, wordOfBytes_bytesOfWord w⟩,
    fun _ h => wordOfBytes_of_length_ne h,
    fun r => ⟨rfl, fun _ hj => responseBytes_getElem? r hj, responseOfBytes_responseBytes r, rfl⟩⟩

/-! ### Taking a word (R66) -/

theorem execWord_of_decode {w : CmdWord} {i : Instr} (h : decode w = .instr i) (s : State) : execWord w s = exec i s := by
  rw [execWord, h]

/-- Settles O5: the step takes the word, and the word is its command. -/
theorem stepRunsTheDecodedCommand : Obligations.StepRunsTheDecodedCommand := fun s w rest i hreset hinputs hdecode => by
  rw [step_command s w rest hinputs hreset, execWord_of_decode hdecode]

/-! ### Every outcome is a next state (R270) -/

/-- A command that writes voices is accepted or rejected; of the others only `RDSTAT` can be rejected. -/
theorem exec_next (i : Instr) (s : State) : ∃ t, exec i s = .next t := by
  cases hw : voiceWrite s.params i with
  | some target => exact ⟨_, (exec_voiceWrite i s _ _ hw).trans (accepted_next ..)⟩
  | none =>
    cases i
    case rdstat voice => exact ⟨_, accepted_next ..⟩
    case nop | reset | peek | advance | pull | rderr | master => exact ⟨_, rfl⟩
    all_goals cases hw

theorem execWord_next (w : CmdWord) (s : State) : ∃ t, execWord w s = .next t := by
  unfold execWord
  split
  · exact exec_next _ s
  · exact ⟨_, rfl⟩
  · exact ⟨_, rfl⟩

/-- A step goes on whatever waits at the port. -/
theorem step_next (s : State) : ∃ t, step s = .next t := by
  cases hinputs : s.inputs with
  | nil => exact ⟨_, step_idle s hinputs⟩
  | cons event rest =>
    cases event with
    | resetLine level => exact ⟨_, step_resetLine s level rest hinputs⟩
    | command w =>
      cases hreset : s.resetLine with
      | true => exact ⟨_, step_command_in_reset s w rest hinputs hreset⟩
      | false => rw [step_command s w rest hinputs hreset]; exact execWord_next w _

/-- Settles O6: commands by `exec_next`, steps by what waits at the port. -/
theorem everyCommandAndStepAnswersNext : Obligations.EveryCommandAndStepAnswersNext :=
  ⟨exec_next, step_next⟩

/-! ### Ill-formed commands (R260, R261) -/

/-- The cause bits of a command's operands: `ERR_VOICE` for a bad voice, `ERR_UNIT` for a bad unit. -/
theorem operandErr_eq_causes (i : Instr) :
    operandErr i = causeUnless (!badVoice i) 2 ||| causeUnless (!badUnit i) 4 := by
  cases i <;>
    simp only [operandErr, badVoice, badUnit, Bool.not_not, causeUnless_anyVoice, causeUnless_oneVoice,
      causeUnless_oscUnits, causeUnless_envUnits, causeUnless_modUnits] <;> simp [causeUnless]

theorem causeUnless_not (bad : Bool) (bit : ErrBits) : causeUnless (!bad) bit = if bad then bit else 0 := by
  cases bad <;> rfl

/-- Ill-formed is the same as having a cause bit. -/
theorem wellFormed_eq_false_iff (i : Instr) : WellFormed i = false ↔ operandErr i ≠ 0 := by
  rw [ne_eq, operandErr_eq_zero, Bool.not_eq_true]

theorem wellFormed_eq_false_iff_bad (i : Instr) : WellFormed i = false ↔ badVoice i = true ∨ badUnit i = true := by
  rw [wellFormed_eq_false_iff, operandErr_eq_causes]
  cases badVoice i <;> cases badUnit i <;> decide

/-- Settles O7: an ill-formed command has a cause bit, and its meaning is the rejection with exactly its cause bits. -/
theorem illFormedCommandsOnlySetErr : Obligations.IllFormedCommandsOnlySetErr := by
  refine fun i => ⟨wellFormed_eq_false_iff_bad i, fun s hill => ?_⟩
  rw [exec_of_operandErr i s ((wellFormed_eq_false_iff i).mp hill), operandErr_eq_causes, causeUnless_not,
    causeUnless_not, State.reject]

end Sys2Proof.Proofs.Codec

/-! The invariants of spec/10_state.md (R24 to R29, R187, R205): each operation on an envelope, a modulator or a voice keeps
them, and so does every step. What they say of volumes and samples: R183, R205, R232. -/

namespace Sys2Proof.Proofs.Invariants

set_option Elab.async false

open Sys2Proof.Machine Sys2Proof.Claims Sys2Proof.Proofs.Waves Sys2Proof.Proofs.Envelopes Sys2Proof.Proofs.Voices
  Sys2Proof.Proofs.System

/-! ### Envelopes: R27 is kept by `set_volume` and `adjust` (R170 P1) -/

section
variable {p : Params} {e : Envelope}

/-- A trigger writes every register that R27 bounds but the gain (R150). -/
theorem trigger_inv (level : Byte) (hgain : e.gain.toNat ≤ 128) : (e.trigger p level).Inv p := by
  obtain ⟨htgt, hslv, hstep⟩ := trigger_values p e level
  have hpos := target_pos p level
  have hpeak := target_le p level
  have hfraction := fraction_le (target p level) e.sus
  have hstep_le := stepSize_le (target p level * 2 ^ 16) e.rlA.toNat
  have hvol : (e.trigger p level).vol.toNat = 0 := rfl
  have hst : (e.trigger p level).st = .attack := rfl
  refine ⟨by omega, by omega, by omega, by omega, hgain, ?_, fun _ => by omega, ?_, ?_⟩ <;> rw [hst] <;> nofun

/-- In `RELEASE` R27 bounds the registers and says nothing more. -/
theorem inv_of_release {y : Envelope} (hst : y.st = .release) (hvol : y.vol.toNat ≤ p.envPeak * 2 ^ 16)
    (htgt : y.tgt.toNat ≤ p.envPeak) (hslv : y.slv.toNat ≤ p.envPeak) (hstep : y.rampStep.toNat ≤ p.envPeak * 2 ^ 16)
    (hgain : y.gain.toNat ≤ 128) : y.Inv p := by
  refine ⟨hvol, htgt, hslv, hstep, hgain, ?_, ?_, ?_, ?_⟩ <;> rw [hst] <;> nofun

/-- A note-off keeps the volume, and its ramp step is at most the volume (R152). -/
theorem noteOff_inv (h : e.Inv p) : e.noteOff.Inv p := by
  obtain ⟨hvol, -, hslv, -, hgain, -⟩ := h
  have hstep := (noteOff_rampStep e).trans_le (stepSize_le ..)
  exact inv_of_release rfl hvol (Nat.zero_le _) hslv (hstep.trans hvol) hgain

theorem setVolume_inv (level : Byte) (h : e.Inv p) : (e.setVolume p level).Inv p := by
  rcases Nat.eq_zero_or_pos level.toNat with h0 | hpos
  · cases hrpt : e.rpt with
    | false => rw [setVolume_noteOff p e level h0 hrpt]; exact noteOff_inv h
    | true => rw [setVolume_repeat p e level h0 hrpt]; exact h
  · obtain ⟨-, -, -, -, hgain, -⟩ := h
    rw [setVolume_trigger p e level hpos]
    exact trigger_inv level hgain

/-- A sample of `ATTACK` stays below the target, and a decay begins at the target, which the sustain level does not
exceed. -/
theorem adjustAttack_inv (h : e.Inv p) (hst : e.st = .attack) : e.adjustAttack.Inv p := by
  obtain ⟨hvol, htgt, hslv, hstep, hgain, -, hattack, -, -⟩ := h
  obtain ⟨hbelow, hpos, hslv_le⟩ := hattack hst
  obtain ⟨hvol', -, -, hframe⟩ := adjustAttack_cases e
  have hend := adjustAttack_ending e
  have hmove := toward_le_max e.vol.toNat e.attackGoal e.rampStep.toNat
  have hstep' := stepSize_le (e.attackGoal - e.decayGoal) e.cntD.toNat
  have htgt' : e.adjustAttack.tgt = e.tgt := by rw [hframe]
  have hslv' : e.adjustAttack.slv = e.slv := by rw [hframe]
  have hgain' : e.adjustAttack.gain = e.gain := by rw [hframe]
  unfold Envelope.Inv
  rw [htgt', hslv', hgain']
  unfold Envelope.attackGoal Envelope.decayGoal at *
  split at hend
  next hdone =>
    obtain ⟨hdecay, hstep_eq⟩ := hend
    rw [hdecay]
    exact ⟨by omega, htgt, hslv, by omega, hgain, nofun, nofun, fun _ => by omega, nofun⟩
  next =>
    obtain ⟨hsame, hstep_eq⟩ := hend
    rw [hsame, hst, hstep_eq]
    exact ⟨by omega, htgt, hslv, hstep, hgain, nofun, fun _ => by omega, nofun, nofun⟩

/-- A sample of `DECAY` stays between the sustain level and the target, and the sustain begins at its level (R157). -/
theorem adjustDecay_inv (h : e.Inv p) (hst : e.st = .decay) : e.adjustDecay.Inv p := by
  obtain ⟨hvol, htgt, hslv, hstep, hgain, -, -, hdecay, -⟩ := h
  obtain ⟨habove, hbelow⟩ := hdecay hst
  obtain ⟨hvol', -, -, hframe⟩ := adjustDecay_cases e
  have hend := adjustDecay_ending e
  have hmove := toward_le_max e.vol.toNat e.decayGoal e.rampStep.toNat
  have hmove' := toward_ge_min e.vol.toNat e.decayGoal e.rampStep.toNat
  have htgt' : e.adjustDecay.tgt = e.tgt := by rw [hframe]
  have hslv' : e.adjustDecay.slv = e.slv := by rw [hframe]
  have hgain' : e.adjustDecay.gain = e.gain := by rw [hframe]
  have hstep' : e.adjustDecay.rampStep = e.rampStep := by rw [hframe]
  unfold Envelope.Inv
  rw [htgt', hslv', hgain', hstep', hend]
  unfold Envelope.decayGoal at *
  split
  next hdone => exact ⟨by omega, htgt, hslv, hstep, hgain, nofun, nofun, nofun, fun _ => hdone.2⟩
  next =>
    rw [hst]
    exact ⟨by omega, htgt, hslv, hstep, hgain, nofun, nofun, fun _ => by omega, nofun⟩

/-- A sample of `SUSTAIN` changes nothing or begins a release from where the volume is. -/
theorem adjustSustain_inv (en : Bool) (h : e.Inv p) : (e.adjustSustain en).Inv p := by
  obtain ⟨hend, hframe⟩ := adjustSustain_cases e en
  split at hend
  next =>
    obtain ⟨hvol, htgt, hslv, -, hgain, -⟩ := h
    obtain ⟨hrelease, hstep⟩ := hend
    have hstep_le := hstep.trans_le (stepSize_le ..)
    rw [hframe] at hrelease hstep_le ⊢
    exact inv_of_release hrelease hvol htgt hslv (hstep_le.trans hvol) hgain
  next => rwa [hend]

/-- A sample of `RELEASE` goes down; it ends at volume 0 with its count used up, or in a trigger. -/
theorem adjustRelease_inv (h : e.Inv p) (hst : e.st = .release) : (e.adjustRelease p).1.Inv p := by
  obtain ⟨hvol, htgt, hslv, hstep, hgain, -⟩ := h
  obtain ⟨hvol', hcnt', hend⟩ := adjustRelease_cases p e
  have hmove := toward_le_max e.vol.toNat 0 e.rampStep.toNat
  split at hend
  next hdone =>
    split at hend
    next => rw [hend]; exact trigger_inv 255 hgain
    next =>
      rw [hend]
      have hsilent : e.releaseMoved.vol.toNat = 0 := hvol'.trans hdone.2
      exact ⟨hsilent.trans_le (Nat.zero_le _), htgt, hslv, hstep, hgain,
        fun _ => ⟨hsilent, hcnt'.trans hdone.1⟩, nofun, nofun, nofun⟩
  next =>
    rw [hend]
    exact inv_of_release hst (hvol'.trans_le (by omega)) htgt hslv hstep hgain

theorem adjust_inv (en : Bool) (h : e.Inv p) : (e.adjust p en).1.Inv p := by
  rcases adjust_cases p e en with ⟨-, heq⟩ | ⟨hst, heq⟩ | ⟨hst, heq⟩ | ⟨-, heq⟩ | ⟨hst, heq⟩ <;> rw [heq]
  · exact h
  · exact adjustAttack_inv h hst
  · exact adjustDecay_inv h hst
  · exact adjustSustain_inv en h
  · exact adjustRelease_inv h hst

/-- A note-off does not move the volume, whether it is taken or not (R170 P4). -/
theorem setVolume_zero_vol (p : Params) (e : Envelope) : (e.setVolume p 0).vol = e.vol := by
  cases hrpt : e.rpt with
  | false => rw [setVolume_noteOff p e 0 rfl hrpt]; rfl
  | true => rw [setVolume_repeat p e 0 rfl hrpt]

/-- Settles O37, by the branches of `set_volume` and the stages of `adjust`. -/
theorem envelopeInvariantsAreKept : Obligations.EnvelopeInvariantsAreKept := fun p e h =>
  ⟨fun level => setVolume_inv level h, fun en => adjust_inv en h, (congrArg BitVec.toNat (setVolume_zero_vol p e)).le⟩

/-! ### Effective volume and depth (R183) -/

theorem volInt_le (h : e.Inv p) : e.volInt ≤ p.envPeak := by
  obtain ⟨hvol, -⟩ := h
  exact Nat.div_le_of_le_mul (by omega)

/-- The effective volume is at most the peak: the gain is at most unity. -/
theorem eff_le (h : e.Inv p) : e.eff ≤ p.envPeak := by
  have hvol := volInt_le h
  obtain ⟨-, -, -, -, hgain, -⟩ := h
  refine Nat.div_le_of_le_mul ?_
  rw [Nat.mul_comm (2 ^ 7)]
  exact Nat.mul_le_mul hvol hgain

/-- The effective volume is the peak exactly when nothing is taken from either of its factors. -/
theorem eff_eq_peak_iff (h : e.Inv p) : e.eff = p.envPeak ↔ e.volInt = p.envPeak ∧ e.gain.toNat = 128 := by
  have hvol := volInt_le h
  have hpeak := p.envPeak_pos
  obtain ⟨-, -, -, -, hgain, -⟩ := h
  refine ⟨fun heff => ?_, fun ⟨hv, hg⟩ => ?_⟩
  · have hprod : p.envPeak * 128 ≤ e.volInt * e.gain.toNat := heff ▸ Nat.div_mul_le_self _ (2 ^ 7)
    have hv : p.envPeak * 128 ≤ e.volInt * 128 := hprod.trans (Nat.mul_le_mul_left _ hgain)
    have hg : p.envPeak * 128 ≤ p.envPeak * e.gain.toNat := hprod.trans (Nat.mul_le_mul_right _ hvol)
    exact ⟨hvol.antisymm (Nat.le_of_mul_le_mul_right hv (by decide)), hgain.antisymm (Nat.le_of_mul_le_mul_left hg hpeak)⟩
  · rw [Envelope.eff, hv, hg]; omega

theorem depth_le (h : e.Inv p) : e.depth p ≤ 65536 :=
  Nat.div_le_of_le_mul (Nat.mul_le_mul_right _ (eff_le h))

/-- A depth of 1.0 is an effective volume at the peak. -/
theorem depth_eq_full_iff (h : e.Inv p) : e.depth p = 65536 ↔ e.eff = p.envPeak := by
  have hpeak := p.envPeak_pos
  refine ⟨fun hdepth => (eff_le h).antisymm ?_, fun heff => ?_⟩
  · have hprod : 65536 * p.envPeak ≤ e.eff * 2 ^ 16 := hdepth ▸ Nat.div_mul_le_self _ p.envPeak
    omega
  · rw [Envelope.depth, heff, Nat.mul_div_cancel_left _ hpeak]; rfl

/-- One unit of effective volume is a depth of at least 1, because the peak has 16 bits. -/
theorem depth_eq_zero_iff (p : Params) (e : Envelope) : e.depth p = 0 ↔ e.eff = 0 := by
  have hpos := p.envPeak_pos
  have hpeak := p.envPeak_le
  rw [Envelope.depth, Nat.div_eq_zero_iff_lt hpos]
  omega

theorem volInt_eq_field (e : Envelope) : e.volInt = (e.vol.extractLsb' 16 16).toNat := (phaseHalf_toNat e.vol).symm

end

/-- Settles O33, by the bound of the effective volume and the depths 1.0 and 0. -/
theorem effectiveVolumeAndDepth : Obligations.EffectiveVolumeAndDepth := by
  intro p e h
  rw [← volInt_eq_field]
  exact ⟨rfl, rfl, eff_le h, depth_le h, (depth_eq_full_iff h).trans (eff_eq_peak_iff h), depth_eq_zero_iff p e⟩

end Sys2Proof.Proofs.Invariants

/-! The headroom of a voice and of the mix (R9, R205, R232), and the invariants of the whole machine: they hold after reset
and every step keeps them. -/

namespace Sys2Proof.Proofs.Safety

set_option Elab.async false

open Sys2Proof.Machine Sys2Proof.Claims Sys2Proof.Proofs.Waves Sys2Proof.Proofs.Voices Sys2Proof.Proofs.System
  Sys2Proof.Proofs.Invariants

/-! ### The sample of a voice (R205) -/

section
variable {p : Params} {x : Voice}

/-- The balanced carriers are samples again, whatever modulates them. -/
theorem abs_mix_le (p : Params) (hbal : x.bal.toNat ≤ 128) : |x.mix p| ≤ 32767 := by
  obtain ⟨hlo1, hhi1⟩ := waveSample_range x.c1.wave (x.c1.phase + x.pmc p) x.c1.duty
  obtain ⟨hlo2, hhi2⟩ := waveSample_range x.c2.wave (x.c2.phase + x.pmc p) x.c2.duty
  exact abs_le.mpr (balanceMix_mem hbal hlo1 hhi1 hlo2 hhi2)

/-- A sample times an effective volume, which is at most the peak. -/
theorem abs_output_le (hamp : x.amp.Inv p) (hbal : x.bal.toNat ≤ 128) : |x.output p| ≤ 32767 * (p.envPeak : Int) :=
  calc |x.output p|
    _ = |x.mix p| * (x.amp.eff : Int) := by rw [Voice.output, abs_mul, Nat.abs_cast]
    _ ≤ 32767 * (p.envPeak : Int) := by
      have hmix := abs_mix_le p hbal
      have heff := eff_le hamp
      gcongr

/-- The lookahead buffer holds every sample within the headroom exactly (R28). -/
theorem wordOfInt_toInt_of_abs_le {z : Int} (hz : |z| ≤ 32767 * (p.envPeak : Int)) : (wordOfInt z).toInt = z := by
  have hpeak := p.envPeak_le
  obtain ⟨hlo, hhi⟩ := abs_le.mp hz
  exact wordOfInt_toInt z (by omega) (by omega)

end

/-- The full polyphony at the peak fits 16 bits (R9). -/
theorem maxPolyphony_mul_envPeak_le (p : Params) : p.maxPolyphony * p.envPeak ≤ 65535 := Nat.mul_div_le _ _

/-- Settles O44, by the bound of the output, which fits the buffer. -/
theorem voiceOutputHeadroom : Obligations.VoiceOutputHeadroom := by
  refine ⟨fun p => ⟨p.envPeak_pos, maxPolyphony_mul_envPeak_le p⟩, fun p x hx => ?_⟩
  obtain ⟨-, -, -, -, hamp, -, -, hbal, -⟩ := hx
  have hout := abs_output_le hamp hbal
  obtain ⟨hlo, hhi⟩ := abs_le.mp hout
  exact ⟨hlo, hhi, wordOfInt_toInt_of_abs_le hout⟩

/-! ### The mix (R232) -/

/-- The voices that sound. -/
def enabledVoices (s : State) : Finset (Fin 128) := Finset.univ.filter fun k : Fin 128 => (s.voices[k.val]).en = true

/-- Each enabled voice adds at most its headroom to the sum, the others nothing. -/
theorem abs_mixSum_le {s : State} (hs : s.Inv) :
    |s.mixSum| ≤ (enabledVoices s).card * (32767 * (s.params.envPeak : Int)) := by
  have hvoice : ∀ k ∈ enabledVoices s, |(s.voices[k.val]).vbuf.toInt| ≤ 32767 * (s.params.envPeak : Int) := by
    intro k _
    obtain ⟨-, -, -, -, -, -, -, -, hlo, hhi⟩ := hs.2 k.val k.isLt
    exact abs_le.mpr ⟨hlo, hhi⟩
  calc |s.mixSum|
    _ = |∑ k ∈ enabledVoices s, (s.voices[k.val]).vbuf.toInt| := by
      rw [State.mixSum_eq, enabledVoices, Finset.sum_filter]; rfl
    _ ≤ ∑ k ∈ enabledVoices s, |(s.voices[k.val]).vbuf.toInt| := Finset.abs_sum_le_sum_abs ..
    _ ≤ (enabledVoices s).card • (32767 * (s.params.envPeak : Int)) := Finset.sum_le_card_nsmul _ _ _ hvoice
    _ = _ := nsmul_eq_mul ..

/-- With at most `MAX_POLYPHONY` voices enabled the sum is at most a full sample times 65535. -/
theorem abs_mixSum_le_of_card {s : State} (hs : s.Inv) (hcard : (enabledVoices s).card ≤ s.params.maxPolyphony) :
    |s.mixSum| ≤ 32767 * 65535 :=
  calc |s.mixSum|
    _ ≤ (enabledVoices s).card * (32767 * (s.params.envPeak : Int)) := abs_mixSum_le hs
    _ ≤ (s.params.maxPolyphony : Int) * (32767 * (s.params.envPeak : Int)) := by gcongr
    _ = 32767 * ((s.params.maxPolyphony * s.params.envPeak : Nat) : Int) := by push_cast; ring
    _ ≤ 32767 * 65535 := by have hbudget := maxPolyphony_mul_envPeak_le s.params; gcongr; exact_mod_cast hbudget

/-- A sum within the budget, scaled by a master volume of at most 1.0, is a sample after the shift by 23. -/
theorem scaled_range {acc : Int} {master : Byte} (hacc : |acc| ≤ 32767 * 65535) (hmaster : master.toNat ≤ 128) :
    -32767 ≤ acc * (master.toNat : Int) / 2 ^ 23 ∧ acc * (master.toNat : Int) / 2 ^ 23 ≤ 32767 := by
  have hprod : |acc * (master.toNat : Int)| ≤ 32767 * 65535 * 128 := by
    rw [abs_mul, Nat.abs_cast]
    gcongr
    exact_mod_cast hmaster
  obtain ⟨hlo, hhi⟩ := abs_le.mp hprod
  omega

theorem sat16_of_range {z : Int} (hlo : -32768 ≤ z) (hhi : z ≤ 32767) : sat16 z = z := by
  unfold sat16
  omega

theorem sat16_range (z : Int) : -32768 ≤ sat16 z ∧ sat16 z ≤ 32767 := by
  unfold sat16
  omega

/-- Settles O49: within the budget the scaled sum is a sample already, and without it saturation makes it one. -/
theorem polyphonyHeadroom : Obligations.PolyphonyHeadroom := by
  refine ⟨fun s hs hcard acc hacc => ?_, fun s => ⟨mixOut_eq_sampleOf s, sat16_range _⟩⟩
  obtain rfl : acc = s.mixSum := hacc.trans s.mixSum_eq.symm
  have hsum := abs_mixSum_le_of_card hs hcard
  obtain ⟨hlo, hhi⟩ := scaled_range hsum hs.1
  have hmix : s.mixOut = s.mixSum * (s.master.toNat : Int) / 2 ^ 23 := sat16_of_range (by rw [asr]; omega) hhi
  rw [hmix]
  obtain ⟨hsum_lo, hsum_hi⟩ := abs_le.mp hsum
  exact ⟨hsum_lo, hsum_hi, rfl, hlo, hhi⟩

/-! ### The reset state -/

theorem envelope_reset_inv (p : Params) : Envelope.reset.Inv p :=
  ⟨Nat.zero_le _, Nat.zero_le _, Nat.zero_le _, Nat.zero_le _, Nat.le_refl 128, fun _ => ⟨rfl, rfl⟩, nofun, nofun, nofun⟩

theorem modulator_reset_inv : Modulator.reset.Inv 0 := by decide

theorem voice_reset_inv (p : Params) : Voice.reset.Inv p := by
  have hbuf : Voice.reset.vbuf.toInt = 0 := rfl
  refine ⟨rfl, rfl, modulator_reset_inv, modulator_reset_inv, envelope_reset_inv p, envelope_reset_inv p,
    envelope_reset_inv p, Nat.zero_le _, ?_, ?_⟩ <;> omega

theorem resetElements_inv (s : State) : s.resetElements.Inv :=
  ⟨Nat.le_refl 128, fun k hk => by rw [State.resetElements_voices, resetVoices_getElem k hk]; exact voice_reset_inv _⟩

/-- Settles O51: the state after reset is its own reset. -/
theorem invariantsHoldAtReset : Obligations.InvariantsHoldAtReset :=
  resetElements_inv State.reset

/-! ### Writes of a voice keep the invariants -/

/-- A refreshed modulator follows the carrier increment it is refreshed from (R187). -/
theorem refresh_inv {m : Modulator} (inc : Word) (hratio : 1 ≤ m.ratioDiv.toNat) (hamount : 1 ≤ m.amountDiv.toNat) :
    (m.refresh inc).Inv inc :=
  ⟨hratio, hamount, scaledInc_toNat m inc⟩

section
variable {p : Params} {x : Voice}

/-- A write of an oscillator register that is neither increment nor phase. -/
theorem onOscillator_inv (unit : Byte) {f : Oscillator → Oscillator} (hf : ∀ o, (f o).inc = o.inc ∧ (f o).phase = o.phase)
    (hx : x.Inv p) : (onOscillator unit f x).Inv p := by
  have hinc o := (hf o).1
  have hphase o := (hf o).2
  rcases onOscillator_cases unit f x with ⟨-, h⟩ | ⟨-, h⟩ | ⟨-, h⟩ | ⟨-, h⟩ | ⟨-, h⟩ | ⟨-, h⟩ <;> rw [h] <;>
    simpa only [Voice.Inv, Modulator.Inv, hinc, hphase] using hx

/-- A write of an envelope that keeps the envelope's invariants. -/
theorem onEnvelope_inv (unit : Byte) {f : Envelope → Envelope} (hf : ∀ e : Envelope, e.Inv p → (f e).Inv p)
    (hx : x.Inv p) : (onEnvelope unit f x).Inv p := by
  obtain ⟨hinc, hphase, hm1, hm2, hamp, he1, he2, hrest⟩ := hx
  rcases onEnvelope_cases unit f x with ⟨-, h⟩ | ⟨-, h⟩ | ⟨-, h⟩ | ⟨-, h⟩ <;> rw [h]
  · exact ⟨hinc, hphase, hm1, hm2, hf _ hamp, he1, he2, hrest⟩
  · exact ⟨hinc, hphase, hm1, hm2, hamp, hf _ he1, he2, hrest⟩
  · exact ⟨hinc, hphase, hm1, hm2, hamp, he1, hf _ he2, hrest⟩
  · exact ⟨hinc, hphase, hm1, hm2, hamp, he1, he2, hrest⟩

/-- A write of a modulator that keeps the modulator's invariants. -/
theorem onModulator_inv (unit : Byte) {f : Modulator → Modulator}
    (hf : ∀ m : Modulator, m.Inv x.c1.inc → (f m).Inv x.c1.inc) (hx : x.Inv p) : (onModulator unit f x).Inv p := by
  obtain ⟨hinc, hphase, hm1, hm2, hrest⟩ := hx
  rcases onModulator_cases unit f x with ⟨-, h⟩ | ⟨-, h⟩ | ⟨-, -, h⟩ <;> rw [h]
  · exact ⟨hinc, hphase, hf _ hm1, hm2, hrest⟩
  · exact ⟨hinc, hphase, hm1, hf _ hm2, hrest⟩
  · exact ⟨hinc, hphase, hm1, hm2, hrest⟩

/-- `set_freq` gives both carriers one increment and refreshes both modulators from it (R124). -/
theorem setFreq_inv (inc : Word) (hx : x.Inv p) : (x.setFreq inc).Inv p := by
  obtain ⟨-, hphase, ⟨hr1, ha1, -⟩, ⟨hr2, ha2, -⟩, hrest⟩ := hx
  exact ⟨rfl, hphase, refresh_inv inc hr1 ha1, refresh_inv inc hr2 ha2, hrest⟩

theorem strike_inv (level : Byte) (inc : Word) (hx : x.Inv p) : (x.strike p level inc).Inv p := by
  obtain ⟨hinc, hphase, hm1, hm2, hamp, he1, he2, hrest⟩ := setFreq_inv inc hx
  exact ⟨hinc, hphase, hm1, hm2, setVolume_inv level hamp, setVolume_inv 255 he1, setVolume_inv 255 he2, hrest⟩

/-- What a command does to a voice it names keeps the voice's invariants: the clamps hold the ranges (R88). -/
theorem voiceWrite_inv {i : Instr} {voice : Byte} {f : Voice → Voice} (hw : voiceWrite p i = some (voice, f))
    (hx : x.Inv p) : (f x).Inv p := by
  have hclamp (d : Word) : (clampByte d 128).toNat ≤ 128 := by rw [clampByte_toNat d 128 (by decide)]; omega
  have hdiv (a : Byte) : 1 ≤ (clampDivisor a).toNat := by rw [clampDivisor_toNat]; omega
  cases i
  case nop | reset | peek | advance | pull | rdstat | rderr | master => cases hw
  all_goals obtain ⟨⟩ := hw
  case oscwave | oscduty => exact onOscillator_inv _ (fun _ => ⟨rfl, rfl⟩) hx
  case lfoinc | vibdepth | ven => exact hx
  case vfreq => exact setFreq_inv _ hx
  case envvol => exact onEnvelope_inv _ (fun _ he => setVolume_inv _ he) hx
  case envatk | envdec | envsus | envrel | envrpt => exact onEnvelope_inv _ (fun _ he => he) hx
  case envgain =>
    refine onEnvelope_inv _ (fun e he => ?_) hx
    obtain ⟨hvol, htgt, hslv, hstep, -, hstages⟩ := he
    exact ⟨hvol, htgt, hslv, hstep, hclamp _, hstages⟩
  case modratio => exact onModulator_inv _ (fun m hm => refresh_inv _ (hdiv _) hm.2.1) hx
  case modamt => exact onModulator_inv _ (fun m hm => ⟨hm.1, hdiv _, hm.2.2⟩) hx
  case vbal =>
    obtain ⟨hinc, hphase, hm1, hm2, hamp, he1, he2, -, hbuf⟩ := hx
    exact ⟨hinc, hphase, hm1, hm2, hamp, he1, he2, hclamp _, hbuf⟩
  case noteon => exact strike_inv _ _ hx

/-- A tick of a voice: the carriers step together, the envelopes keep R27, and so the new sample fits its buffer (R206). -/
theorem advance_inv (hx : x.Inv p) : (x.advance p).Inv p := by
  obtain ⟨hinc, hphase, hm1, hm2, hamp, he1, he2, hbal, -⟩ := hx
  have hamp' := adjust_inv x.en hamp
  have hout : |(x.advance p).output p| ≤ 32767 * (p.envPeak : Int) := abs_output_le hamp' hbal
  have hbuf : (x.advance p).vbuf.toInt = (x.advance p).output p := by
    rw [advance_vbuf_eq_output]
    exact wordOfInt_toInt_of_abs_le hout
  have hphase' : (x.advance p).c1.phase = (x.advance p).c2.phase := by
    rw [Voice.advance_c1, Voice.advance_c2, Oscillator.phaseStep_phase, Oscillator.phaseStep_phase, hinc, hphase]
  refine ⟨hinc, hphase', hm1, hm2, hamp', adjust_inv x.en he1, adjust_inv x.en he2, hbal, ?_⟩
  rw [hbuf]
  exact abs_le.mp hout

end

/-! ### Commands and steps keep the invariants -/

theorem tick_inv {s : State} (hs : s.Inv) : s.tick.Inv :=
  ⟨hs.1, fun k hk => by rw [tick_voices_getElem s k hk]; exact advance_inv (hs.2 k hk)⟩

theorem exec_inv {i : Instr} {s t : State} (h : exec i s = .next t) (hs : s.Inv) : t.Inv := by
  rcases exec_cases i s t h with ⟨_, -, -, rfl⟩ | ⟨voice, f, hw, -, rfl⟩ | ⟨-, rfl⟩ | ⟨-, rfl⟩ | ⟨-, rfl⟩ | ⟨-, rfl⟩ |
    ⟨-, rfl⟩ | ⟨_, -, -, rfl⟩ | ⟨-, rfl⟩ | ⟨data, -, rfl⟩
  · exact hs
  · refine ⟨hs.1, fun k hk => ?_⟩
    rw [State.onVoices_voices, onTargets_getElem]
    split
    · exact voiceWrite_inv hw (hs.2 k hk)
    · exact hs.2 k hk
  · exact hs
  · exact resetElements_inv s
  · exact hs
  · exact tick_inv hs
  · exact tick_inv hs
  · exact hs
  · exact hs
  · exact ⟨by rw [clampByte_toNat data 128 (by decide)]; omega, hs.2⟩

/-- Settles O52: the lines to the host are no part of the invariants, so a step keeps them when its command or its reset
does. -/
theorem everyStepKeepsTheInvariants : Obligations.EveryStepKeepsTheInvariants := by
  intro s t hs h
  rcases step_cases s t h with ⟨-, rfl⟩ | ⟨level, rest, -, rfl⟩ | ⟨w, rest, -, -, rfl⟩ | ⟨w, rest, i, -, -, -, hexec⟩ |
    ⟨w, rest, bits, -, -, -, rfl⟩
  · exact hs
  · rcases driveReset_cases { s with inputs := rest } level with ⟨-, hdrive⟩ | ⟨-, -, hdrive⟩ <;> rw [hdrive]
    · exact resetElements_inv s
    · exact hs
  · exact hs
  · exact exec_inv hexec hs
  · exact hs

end Sys2Proof.Proofs.Safety

/-! Whole runs of an envelope (spec/41_envelope.md R158, R170 P2 and P5): the stages of R161 one after the other. -/

namespace Sys2Proof.Proofs.EnvelopeRuns

set_option Elab.async false

open Sys2Proof.Machine Sys2Proof.Claims Sys2Proof.Proofs.Envelopes

section
variable (p : Params) (en : Nat → Bool)

/-! ### Runs in a row -/

/-- A run of `m + n` samples is one of `m` and, from where it ended, one of `n`. -/
theorem runEnvelope_add (e : Envelope) (m n : Nat) :
    runEnvelope p en e (m + n) = runEnvelope p (fun k => en (m + k)) (runEnvelope p en e m) n := by
  induction n with
  | zero => rfl
  | succ n ih => rw [← Nat.add_assoc, runEnvelope, ih, runEnvelope]

/-- An envelope that a sample leaves as it is, whatever `EN` the voice then has, stays as it is. -/
theorem runEnvelope_of_fixed {e : Envelope} (h : ∀ n, (e.adjust p (en n)).1 = e) (n : Nat) : runEnvelope p en e n = e := by
  induction n with
  | zero => rfl
  | succ n ih => rw [runEnvelope, ih, h n]

theorem runEnvelope_one (e : Envelope) : runEnvelope p en e 1 = (e.adjust p (en 0)).1 := rfl

/-! ### The envelope at the end of a ramp stage, whole -/

/-- What the last sample of a ramp stage leaves: the volume at the goal, the count used up, the next stage with its ramp step;
at the end of a release in repeat mode the restart of R158. -/
def stageEnd (e : Envelope) : Envelope :=
  match e.st with
  | .attack =>
    { e with st := .decay, vol := BitVec.ofNat 32 e.attackGoal, cntA := 0,
             rampStep := BitVec.ofNat 32 (stepSize (e.attackGoal - e.decayGoal) e.cntD.toNat) }
  | .decay => { e with st := .sustain, vol := BitVec.ofNat 32 e.decayGoal, cntD := 0 }
  | _ => if e.rpt then e.trigger p 255 else { e with st := .waiting, vol := 0, cntR := 0 }

theorem countDown_eq_zero {n : Word} (h : n.toNat - 1 = 0) : countDown n = 0 :=
  BitVec.eq_of_toNat_eq ((countDown_toNat n).trans h)

/-- The last sample of a ramp stage leaves `stageEnd`. -/
theorem adjust_eq_stageEnd (enabled : Bool) {e : Envelope} (hr : Ramping e) (hlast : LastSample e) :
    (e.adjust p enabled).1 = stageEnd p e := by
  obtain ⟨hcount, hgoal⟩ := hlast
  rcases hr with h | h | h <;> simp only [rampGoal, rampCount, h] at hcount hgoal
  · rw [adjust_attack p enabled h, Envelope.adjustAttack]
    simp only [countDown_eq_zero hcount, hgoal, stageEnd, h]
    exact if_pos ⟨rfl, trivial⟩
  · rw [adjust_decay p enabled h, Envelope.adjustDecay]
    simp only [countDown_eq_zero hcount, hgoal, stageEnd, h]
    exact if_pos ⟨rfl, trivial⟩
  · obtain ⟨-, -, hend⟩ := adjustRelease_cases p e
    rw [if_pos ⟨hcount, hgoal⟩] at hend
    simp only [adjust_release p enabled h, stageEnd, h]
    split at hend
    next hrpt => rw [hend, if_pos hrpt]; rfl
    next hrpt => rw [hend, if_neg hrpt, Envelope.releaseMoved, hgoal, countDown_eq_zero hcount]; rfl

/-- The end of a stage does not depend on how far the stage has come. -/
theorem stageEnd_rampAt (e : Envelope) (vol count : Word) : stageEnd p (rampAt e vol count) = stageEnd p e := by
  cases h : e.st <;> simp only [stageEnd, rampAt, h] <;> rfl

/-- The moves of the whole stage reach its goal. -/
def Reaches (e : Envelope) : Prop := rampVol e (stageLength e) = rampGoal e

/-- A ramp stage that reaches its goal ends with its length, as `stageEnd` says (R161). -/
theorem runEnvelope_stageLength {e : Envelope} (hr : Ramping e) (hreach : Reaches e) :
    runEnvelope p en e (stageLength e) = stageEnd p e := by
  obtain ⟨n, hn⟩ : ∃ n, n + 1 = stageLength e := ⟨stageLength e - 1, by unfold stageLength; omega⟩
  rw [← hn, runEnvelope, runEnvelope_ramp p en hr (by omega),
    adjust_eq_stageEnd p _ (ramping_rampAfter hr n) (lastSample_rampAfter hn hreach), rampAfter, stageEnd_rampAt]

/-! ### A release ends in silence (R170 P2) -/

theorem runEnvelope_waiting {e : Envelope} (h : e.st = .waiting) (n : Nat) : runEnvelope p en e n = e :=
  runEnvelope_of_fixed p en (fun _ => by rw [adjust_waiting p _ h]) n

/-- A release entered with the ramp step of R145 from where the volume is. -/
theorem reaches_of_release {e : Envelope} (hst : e.st = .release)
    (hstep : e.rampStep.toNat = stepSize e.vol.toNat e.cntR.toNat) : Reaches e := by
  have hgoal : rampGoal e = 0 := by rw [rampGoal, hst]
  have hcount : rampCount e = e.cntR := by rw [rampCount, hst]
  exact rampVol_stageLength (by rw [hstep, hcount]) (by omega) (by omega)

/-- Outside repeat mode a note-off brings the envelope to rest with the length of its release, and it stays there. -/
theorem runEnvelope_noteOff {e : Envelope} (hrpt : e.rpt = false) {n : Nat} (hn : max e.cntR.toNat 1 ≤ n) :
    runEnvelope p en e.noteOff n = { e.noteOff with st := .waiting, vol := 0, cntR := 0 } := by
  have hlength : stageLength e.noteOff = max e.cntR.toNat 1 := rfl
  have hend : stageEnd p e.noteOff = { e.noteOff with st := .waiting, vol := 0, cntR := 0 } :=
    if_neg (by rw [Envelope.noteOff, hrpt]; decide)
  have hreach : Reaches e.noteOff := reaches_of_release rfl (noteOff_rampStep e)
  obtain ⟨m, rfl⟩ := Nat.exists_eq_add_of_le hn
  rw [runEnvelope_add, ← hlength, runEnvelope_stageLength p en (.inr (.inr rfl)) hreach, hend, runEnvelope_waiting p _ rfl]

end

/-- Settles O39: after the release the envelope waits at volume 0. -/
theorem silentTailAfterNoteOff : Obligations.SilentTailAfterNoteOff := by
  intro p en e hrpt n hn
  rw [setVolume_noteOff p e 0 rfl hrpt, runEnvelope_noteOff p en hrpt hn]
  exact ⟨rfl, rfl, by simp [Envelope.eff, Envelope.volInt]⟩

/-! ### From a trigger to the sustain (R170 P5) -/

section
variable (p : Params) (en : Nat → Bool) (e : Envelope) (level : Byte)

/-- The triggered envelope when its attack is over. -/
def decayStart : Envelope := stageEnd p (e.trigger p level)

/-- The triggered envelope when its decay is over. -/
def sustainStart : Envelope := stageEnd p (decayStart p e level)

theorem reaches_trigger : Reaches (e.trigger p level) := by
  obtain ⟨htgt, -, hstep⟩ := trigger_values p e level
  have hgoal : rampGoal (e.trigger p level) = target p level * 2 ^ 16 := congrArg (· * 2 ^ 16) htgt
  have hvol : (e.trigger p level).vol.toNat = 0 := rfl
  exact rampVol_stageLength (dist := target p level * 2 ^ 16) hstep (by omega) (by omega)

theorem reaches_decayStart : Reaches (decayStart p e level) := by
  obtain ⟨htgt, hslv, -⟩ := trigger_values p e level
  have hlevel := fraction_le (target p level) e.sus
  have hbelow : (e.trigger p level).decayGoal ≤ (e.trigger p level).attackGoal := by
    unfold Envelope.attackGoal Envelope.decayGoal
    omega
  have hlt := attackGoal_lt (e.trigger p level)
  have hgoal : rampGoal (decayStart p e level) = (e.trigger p level).decayGoal := rfl
  have hvol : (decayStart p e level).vol.toNat = (e.trigger p level).attackGoal := Nat.mod_eq_of_lt hlt
  have hstep := stepSize_fits ((e.trigger p level).attackGoal - (e.trigger p level).decayGoal) e.rlD.toNat (by omega)
  exact rampVol_stageLength hstep (by omega) (by omega)

/-- The attack of a triggered envelope. -/
theorem runEnvelope_attack {n : Nat} (hn : n < max e.rlA.toNat 1) : (runEnvelope p en (e.trigger p level) n).st = .attack :=
  runEnvelope_stage_st p en (.inl rfl) hn

/-- Its end. -/
theorem runEnvelope_attack_end :
    runEnvelope p en (e.trigger p level) (max e.rlA.toNat 1) = decayStart p e level :=
  runEnvelope_stageLength p en (.inl rfl) (reaches_trigger p e level)

/-- The decay of a triggered envelope. -/
theorem runEnvelope_decay {n : Nat} (hn : n < max e.rlD.toNat 1) :
    (runEnvelope p en (e.trigger p level) (max e.rlA.toNat 1 + n)).st = .decay := by
  rw [runEnvelope_add, runEnvelope_attack_end]
  exact runEnvelope_stage_st p _ (.inr (.inl rfl)) hn

/-- Its end. -/
theorem runEnvelope_decay_end :
    runEnvelope p en (e.trigger p level) (max e.rlA.toNat 1 + max e.rlD.toNat 1) = sustainStart p e level := by
  rw [runEnvelope_add, runEnvelope_attack_end]
  exact runEnvelope_stageLength p _ (.inr (.inl rfl)) (reaches_decayStart p e level)

theorem sustainStart_st : (sustainStart p e level).st = .sustain := rfl

/-- The sustain begins at the latched level (R157). -/
theorem sustainStart_vol : (sustainStart p e level).vol.toNat = (e.trigger p level).slv.toNat * 2 ^ 16 :=
  Nat.mod_eq_of_lt (decayGoal_lt (e.trigger p level))

end

/-- In an enabled voice and outside repeat mode a sustain is held (R155). -/
theorem adjust_sustain_held (p : Params) {e : Envelope} (hst : e.st = .sustain) (hrpt : e.rpt = false) :
    (e.adjust p true).1 = e := by
  obtain ⟨hend, -⟩ := adjustSustain_cases e true
  rw [if_neg (by simp [hrpt])] at hend
  rw [adjust_sustain p true hst, hend]

/-- Settles O40: attack, decay, and a sustain that is held. -/
theorem sustainIsReachedAndHeld : Obligations.SustainIsReachedAndHeld := by
  rintro p e level hpos hrpt y rfl
  rw [setVolume_trigger p e level hpos]
  refine ⟨fun n hn => ?_, fun n hn => ?_⟩
  · rcases Nat.lt_or_ge n (max e.rlA.toNat 1) with hattack | hdecay
    · rw [runEnvelope_attack p _ e level hattack]; decide
    · obtain ⟨m, rfl⟩ := Nat.exists_eq_add_of_le hdecay
      rw [runEnvelope_decay p _ e level (by omega)]; decide
  · have hheld : ∀ k, runEnvelope p (fun _ => true) (sustainStart p e level) k = sustainStart p e level :=
      runEnvelope_of_fixed p _ fun _ => adjust_sustain_held p (sustainStart_st p e level) hrpt
    obtain ⟨m, rfl⟩ := Nat.exists_eq_add_of_le hn
    rw [runEnvelope_add, runEnvelope_decay_end, hheld]
    exact ⟨sustainStart_st p e level, sustainStart_vol p e level⟩

/-! ### The repeat cycle (R158) -/

section
variable (p : Params) (en : Nat → Bool) (e : Envelope)

/-- The release that repeat mode begins after one sample of sustain. -/
def releaseStart : Envelope := (sustainStart p e 255).adjustSustain true

/-- Repeat mode leaves the sustain whether the voice is enabled or not (R155). -/
theorem adjust_sustainStart (hrpt : e.rpt = true) (enabled : Bool) :
    ((sustainStart p e 255).adjust p enabled).1 = releaseStart p e := by
  have hrpt' : (sustainStart p e 255).rpt = true := hrpt
  rw [adjust_sustain p enabled (sustainStart_st p e 255), releaseStart, Envelope.adjustSustain, Envelope.adjustSustain,
    if_pos (.inr hrpt'), if_pos (.inr hrpt')]

/-- After attack, decay and one sample of sustain. -/
theorem runEnvelope_sustain_end (hrpt : e.rpt = true) :
    runEnvelope p en (e.trigger p 255) (max e.rlA.toNat 1 + max e.rlD.toNat 1 + 1) = releaseStart p e := by
  rw [runEnvelope_add, runEnvelope_decay_end, runEnvelope_one, adjust_sustainStart p e hrpt]

/-- The release begins from where the sustain was, with the count latched at the trigger. -/
theorem releaseStart_eq (hrpt : e.rpt = true) : (releaseStart p e).st = .release ∧ (releaseStart p e).cntR = e.rlR ∧
    (releaseStart p e).rampStep.toNat = stepSize (releaseStart p e).vol.toNat (releaseStart p e).cntR.toNat := by
  obtain ⟨hend, hframe⟩ := adjustSustain_cases (sustainStart p e 255) true
  rw [if_pos (.inr hrpt)] at hend
  obtain ⟨hst, hstep⟩ := hend
  exact ⟨hst, (congrArg Envelope.cntR hframe).trans rfl, by rw [releaseStart, hstep, hframe]⟩

/-- The restart at the end of the release is the trigger again: a trigger reads only the reload values, the sustain setting,
the gain and the mode, and no sample has changed these. -/
theorem stageEnd_releaseStart (hrpt : e.rpt = true) : stageEnd p (releaseStart p e) = e.trigger p 255 := by
  have hrpt' : (sustainStart p e 255).rpt = true := hrpt
  rw [releaseStart, Envelope.adjustSustain, if_pos (.inr hrpt')]
  exact if_pos hrpt

end

/-- Settles O41: attack, decay, one sample of sustain, and a release that ends in the trigger it began with. -/
theorem repeatCycleReturnsToItsStart : Obligations.RepeatCycleReturnsToItsStart := by
  rintro p en e hrpt y a d r rfl rfl rfl rfl
  rw [setVolume_trigger p e 255 (by decide)]
  obtain ⟨hst, hcnt, hstep⟩ := releaseStart_eq p e hrpt
  have hr : Ramping (releaseStart p e) := .inr (.inr hst)
  have hlength : stageLength (releaseStart p e) = max e.rlR.toNat 1 := by rw [stageLength, rampCount, hst, hcnt]
  refine ⟨fun n => runEnvelope_attack p en e 255, fun n hattack hn => ?decay, ?sustain, fun n hsustain hn => ?release, ?back⟩
  case decay =>
    obtain ⟨m, rfl⟩ := Nat.exists_eq_add_of_le hattack
    exact runEnvelope_decay p en e 255 (by omega)
  case sustain => rw [runEnvelope_decay_end, sustainStart_st]
  case release =>
    obtain ⟨m, rfl⟩ := Nat.exists_eq_add_of_le (Nat.succ_le_of_lt hsustain)
    rw [Nat.succ_eq_add_one, runEnvelope_add, runEnvelope_sustain_end p en e hrpt, runEnvelope_stage_st p _ hr (by omega), hst]
  case back =>
    rw [runEnvelope_add, runEnvelope_sustain_end p en e hrpt, ← hlength,
      runEnvelope_stageLength p _ hr (reaches_of_release hst hstep), stageEnd_releaseStart p e hrpt]

end Sys2Proof.Proofs.EnvelopeRuns

/-! What a command leaves in each voice (R113, R208, R209, R290), in `ERR` (R264), when repeated (R65) and in another order
(R188). -/

namespace Sys2Proof.Proofs.Commands

set_option Elab.async false

open Sys2Proof.Machine Sys2Proof.Claims Sys2Proof.Proofs.Encoding Sys2Proof.Proofs.Codec Sys2Proof.Proofs.Envelopes
  Sys2Proof.Proofs.Voices Sys2Proof.Proofs.System Sys2Proof.Proofs.Invariants

/-! ### What a command that writes voices does (R86, R91) -/

/-- The write of the voices it names, or its rejection. -/
def writeOrReject (bits : ErrBits) (voice : Byte) (f : Voice → Voice) (s : State) : State :=
  if bits = 0 then s.onVoices voice f else s.reject bits

theorem exec_eq_writeOrReject {i : Instr} {s : State} {voice : Byte} {f : Voice → Voice}
    (hi : voiceWrite s.params i = some (voice, f)) : exec i s = .next (writeOrReject (operandErr i) voice f s) :=
  (exec_voiceWrite i s voice f hi).trans (accepted_next ..)

section
variable (bits : ErrBits) (voice : Byte) (f : Voice → Voice) (s : State)

theorem writeOrReject_params : (writeOrReject bits voice f s).params = s.params := by
  unfold writeOrReject
  split <;> rfl

theorem writeOrReject_master : (writeOrReject bits voice f s).master = s.master := by
  unfold writeOrReject
  split <;> rfl

theorem writeOrReject_getElem (k : Nat) (hk : k < 128) : (writeOrReject bits voice f s).voices[k] =
    if bits = 0 ∧ (voice.toNat = k ∨ voice.toNat = 255) then f s.voices[k] else s.voices[k] := by
  by_cases h : bits = 0 <;> simp only [writeOrReject, h, if_true, if_false, true_and, false_and]
  · exact onTargets_getElem voice f s.voices k hk
  · exact congrArg (·[k]) (s.reject_voices bits)

end

theorem voiceWrite_of_writesVoices (p : Params) {i : Instr} (hi : writesVoices i = true) :
    ∃ voice f, voiceWrite p i = some (voice, f) := by
  cases i
  case nop | reset | peek | advance | pull | rdstat | rderr | master => cases hi
  all_goals exact ⟨_, _, rfl⟩

/-! ### Voice by voice (R209) -/

/-- What a command leaves in voice `k`, from that voice and the parameter. -/
def voiceAfter (p : Params) (i : Instr) (k : Nat) (x : Voice) : Voice :=
  match voiceWrite p i with
  | some (voice, f) => if operandErr i = 0 ∧ (voice.toNat = k ∨ voice.toNat = 255) then f x else x
  | none => if i = .reset then Voice.reset else if i = .advance ∨ i = .pull then x.advance p else x

/-- Every voice after a command is `voiceAfter` of that voice before. -/
theorem exec_voices {i : Instr} {s t : State} (h : exec i s = .next t) (k : Nat) (hk : k < 128) :
    t.voices[k] = voiceAfter s.params i k s.voices[k] := by
  cases hw : voiceWrite s.params i with
  | some target =>
    obtain ⟨voice, f⟩ := target
    rw [exec_eq_writeOrReject hw] at h
    cases h
    simp only [voiceAfter, hw]
    exact writeOrReject_getElem ..
  | none =>
    simp only [voiceAfter, hw]
    cases i
    case nop | peek | advance | pull | rderr | master => cases h; simp
    case reset => cases h; exact resetVoices_getElem k hk
    case rdstat => rcases accepted_cases _ _ _ _ h with ⟨-, rfl⟩ | ⟨-, rfl⟩ <;> simp
    all_goals cases hw

/-- Settles O56: `voiceAfter` reads no other voice and no global register. -/
theorem voicesAreIndependent : Obligations.VoicesAreIndependent := by
  intro i s s' t t' k hk hparams hvoice h h'
  rw [exec_voices h k hk, exec_voices h' k hk, hparams, hvoice]

/-- A part of a voice that no write of the command changes is kept, unless the command is a tick or `RESET`. -/
theorem exec_keeps {α : Type} (part : Voice → α) {i : Instr} {s t : State} (h : exec i s = .next t)
    (hadvance : i ≠ .advance) (hpull : i ≠ .pull) (hreset : i ≠ .reset)
    (hpart : ∀ voice f, voiceWrite s.params i = some (voice, f) → ∀ x, part (f x) = part x) (k : Nat) (hk : k < 128) :
    part t.voices[k] = part s.voices[k] := by
  rw [exec_voices h k hk, voiceAfter]
  split
  next voice f hw =>
    split
    · exact hpart voice f hw _
    · rfl
  next => rw [if_neg hreset, if_neg (by simp [hadvance, hpull])]

/-- Every voice after a tick (R235). -/
theorem exec_tick_voice {i : Instr} {s t : State} (hi : i = .advance ∨ i = .pull) (h : exec i s = .next t) (k : Nat)
    (hk : k < 128) : t.voices[k] = (s.voices[k]).advance s.params := by
  rw [exec_voices h k hk]
  rcases hi with rfl | rfl <;> rfl

/-! ### What a write of a voice keeps (R113, R208, R290) -/

/-- The phases, the buffered sample and `EN` are as before. -/
def Kept (x y : Voice) : Prop := phases y = phases x ∧ y.vbuf = x.vbuf ∧ y.en = x.en

theorem kept_refl (x : Voice) : Kept x x := ⟨rfl, rfl, rfl⟩

theorem onOscillator_kept (unit : Byte) {f : Oscillator → Oscillator} (hf : ∀ o, (f o).phase = o.phase) (x : Voice) :
    Kept x (onOscillator unit f x) := by
  rcases onOscillator_cases unit f x with ⟨-, h⟩ | ⟨-, h⟩ | ⟨-, h⟩ | ⟨-, h⟩ | ⟨-, h⟩ | ⟨-, h⟩ <;> rw [h] <;>
    simp [Kept, phases, hf]

theorem onEnvelope_kept (unit : Byte) (f : Envelope → Envelope) (x : Voice) : Kept x (onEnvelope unit f x) := by
  rcases onEnvelope_cases unit f x with ⟨-, h⟩ | ⟨-, h⟩ | ⟨-, h⟩ | ⟨-, h⟩ <;> rw [h] <;> exact kept_refl x

theorem onModulator_kept (unit : Byte) {f : Modulator → Modulator} (hf : ∀ m, (f m).osc.phase = m.osc.phase) (x : Voice) :
    Kept x (onModulator unit f x) := by
  rcases onModulator_cases unit f x with ⟨-, h⟩ | ⟨-, h⟩ | ⟨-, -, h⟩ <;> rw [h] <;> simp [Kept, phases, hf]

section
variable {p : Params} {i : Instr} {voice : Byte} {f : Voice → Voice}

/-- Of the commands that write voices, only `VEN` and `NOTEON` write anything of these. -/
theorem voiceWrite_kept (hw : voiceWrite p i = some (voice, f)) (hven : ∀ v d, i ≠ .ven v d)
    (hnoteon : ∀ v a d, i ≠ .noteon v a d) (x : Voice) : Kept x (f x) := by
  cases i
  case ven => exact absurd rfl (hven _ _)
  case noteon => exact absurd rfl (hnoteon _ _ _)
  all_goals obtain ⟨⟩ := hw
  case oscwave | oscduty => exact onOscillator_kept _ (fun _ => by rfl) x
  case modratio | modamt => exact onModulator_kept _ (fun _ => by rfl) x
  case envvol | envatk | envdec | envsus | envrel | envgain | envrpt => exact onEnvelope_kept ..
  case lfoinc | vfreq | vbal | vibdepth => exact kept_refl x

/-- And these two write `EN` alone of them: no write moves a phase or changes a buffered sample. -/
theorem voiceWrite_phases_vbuf (hw : voiceWrite p i = some (voice, f)) (x : Voice) :
    phases (f x) = phases x ∧ (f x).vbuf = x.vbuf := by
  by_cases hven : ∃ v d, i = .ven v d
  · obtain ⟨v, d, rfl⟩ := hven
    obtain ⟨⟩ := hw
    exact ⟨rfl, rfl⟩
  by_cases hnoteon : ∃ v a d, i = .noteon v a d
  · obtain ⟨v, a, d, rfl⟩ := hnoteon
    obtain ⟨⟩ := hw
    exact ⟨rfl, rfl⟩
  push Not at hven hnoteon
  obtain ⟨hphases, hvbuf, -⟩ := voiceWrite_kept hw hven hnoteon x
  exact ⟨hphases, hvbuf⟩

end

/-- Settles O53: no write of a voice moves a phase. -/
theorem phasesMoveOnlyOnTicks : Obligations.PhasesMoveOnlyOnTicks :=
  fun _ _ _ hadvance hpull hreset h =>
    exec_keeps phases h hadvance hpull hreset fun _ _ hw x => (voiceWrite_phases_vbuf hw x).1

/-! ### The lookahead buffer (R290) -/

/-- The mixed sample is made of the enabled flags, the buffered samples and the master volume. -/
theorem sampleOf_congr {s t : State} (hmaster : t.master = s.master)
    (hvoices : ∀ k (hk : k < 128), (t.voices[k]).en = (s.voices[k]).en ∧ (t.voices[k]).vbuf = (s.voices[k]).vbuf) :
    sampleOf t = sampleOf s := by
  have hsum : ∀ k : Fin 128, (if (t.voices[k.val]).en then (t.voices[k.val]).vbuf.toInt else 0) =
      if (s.voices[k.val]).en then (s.voices[k.val]).vbuf.toInt else 0 := fun k => by
    rw [(hvoices k.val k.isLt).1, (hvoices k.val k.isLt).2]
  simp only [sampleOf, hmaster, hsum]

/-- A command that writes voices writes no master volume. -/
theorem exec_master_of_writesVoices {i : Instr} {s t : State} (hi : writesVoices i = true) (h : exec i s = .next t) :
    t.master = s.master := by
  obtain ⟨voice, f, hw⟩ := voiceWrite_of_writesVoices s.params hi
  rw [exec_eq_writeOrReject hw] at h
  cases h
  exact writeOrReject_master ..

theorem writesVoices_of_writesParameters {i : Instr} (hi : writesParameters i = true) : writesVoices i = true := by
  cases i
  case ven | noteon => rfl
  all_goals exact hi

/-- A write of a parameter changes neither `EN` nor a buffered sample. -/
theorem exec_sampleOf_of_writesParameters {i : Instr} {s t : State} (hi : writesParameters i = true)
    (h : exec i s = .next t) : sampleOf t = sampleOf s := by
  have hne : ∀ j, writesParameters j = false → i ≠ j := by
    rintro j hj rfl
    rw [hi] at hj
    cases hj
  refine sampleOf_congr (exec_master_of_writesVoices (writesVoices_of_writesParameters hi) h) fun k hk => ?_
  refine Prod.mk.inj (exec_keeps (fun x => (x.en, x.vbuf)) h (hne _ rfl) (hne _ rfl) (hne _ rfl) ?_ k hk)
  intro voice f hw x
  obtain ⟨-, hvbuf, hen⟩ := voiceWrite_kept hw (fun _ _ => hne _ rfl) (fun _ _ _ => hne _ rfl) x
  exact congrArg₂ Prod.mk hen hvbuf

/-- Settles O59: no write of a voice changes its buffered sample, and no parameter is read by the mix. -/
theorem parameterWritesWaitForTheNextTick : Obligations.ParameterWritesWaitForTheNextTick :=
  ⟨fun _ _ _ hadvance hpull hreset h =>
    exec_keeps Voice.vbuf h hadvance hpull hreset fun _ _ hw x => (voiceWrite_phases_vbuf hw x).2,
    fun _ _ _ hi h => exec_sampleOf_of_writesParameters hi h⟩

/-! ### The enabled flag (R208) -/

/-- "Just became silent" is the transition from `RELEASE` to `WAITING` (R159). -/
theorem adjust_silent_iff (p : Params) (e : Envelope) (en : Bool) :
    (e.adjust p en).2 = true ↔ e.st = .release ∧ (e.adjust p en).1.st = .waiting := by
  obtain ⟨-, -, -, hadjust⟩ := onlyTheStageTransitionsOfTheTable
  obtain ⟨-, -, -, -, -, hsilent⟩ := hadjust p e en _ _ rfl
  exact hsilent

theorem advance_en_eq_stages (p : Params) (x : Voice) :
    (x.advance p).en = (x.en && !decide (x.amp.st = .release ∧ (x.advance p).amp.st = .waiting)) := by
  rw [advance_en_eq_and, Voice.advance_amp, ← Bool.decide_coe (x.amp.adjust p x.en).2]
  simp only [adjust_silent_iff]

/-- Settles O55: a write that changes `EN` is `VEN` or `NOTEON`, and a tick follows the amplitude envelope. -/
theorem enabledFlagLifeCycle : Obligations.EnabledFlagLifeCycle := by
  intro i s t h k hk
  refine ⟨fun hchanged => ?_, fun hi => ?_⟩
  · by_contra hother
    push Not at hother
    obtain ⟨hadvance, hpull, hreset, hven, hnoteon⟩ := hother
    exact hchanged (exec_keeps Voice.en h hadvance hpull hreset
      (fun _ _ hw x => (voiceWrite_kept hw hven hnoteon x).2.2) k hk)
  · rw [exec_tick_voice hi h k hk]
    exact advance_en_eq_stages _ _

/-! ### `ERR` (R264) -/

theorem and_or_self_left (err bits : ErrBits) : err &&& (err ||| bits) = err := by
  revert err bits
  decide

/-- A command other than `RESET` clears no bit of `ERR`. -/
theorem exec_err_sticky {i : Instr} {s t : State} (hi : i ≠ .reset) (h : exec i s = .next t) : s.err &&& t.err = s.err := by
  rcases exec_cases i s t h with ⟨_, -, -, rfl⟩ | ⟨_, _, -, -, rfl⟩ | ⟨-, rfl⟩ | ⟨hreset, -⟩ | ⟨-, rfl⟩ | ⟨-, rfl⟩ |
    ⟨-, rfl⟩ | ⟨_, -, -, rfl⟩ | ⟨-, rfl⟩ | ⟨_, -, rfl⟩
  · exact and_or_self_left _ _
  · exact BitVec.and_self
  · exact BitVec.and_self
  · exact absurd hreset hi
  · exact BitVec.and_self
  · exact BitVec.and_self
  · exact BitVec.and_self
  · exact BitVec.and_self
  · exact BitVec.and_self
  · exact BitVec.and_self

theorem encode_reset : encode .reset = 0x0100000000000000 := by decide

/-- Settles O54: a rejection adds bits, and only the word of `RESET` decodes to `RESET`. -/
theorem errBitsAreSticky : Obligations.ErrBitsAreSticky := by
  intro s t h hnoReset hnoLine
  rcases step_cases s t h with ⟨-, rfl⟩ | ⟨level, rest, hinputs, -⟩ | ⟨w, rest, -, -, rfl⟩ |
    ⟨w, rest, i, hinputs, -, hdecode, hexec⟩ | ⟨w, rest, bits, -, -, -, rfl⟩
  · exact BitVec.and_self
  · exact absurd hinputs (hnoLine level rest)
  · exact BitVec.and_self
  · refine exec_err_sticky (s := { s with inputs := rest }) ?_ hexec
    rintro rfl
    have hw := encode_of_decode hdecode
    rw [encode_reset] at hw
    exact hnoReset rest (hw ▸ hinputs)
  · exact and_or_self_left _ _

/-! ### Repeated commands (R65) -/

section
variable {p : Params}

/-- A change of one unit, twice. -/
theorem onOscillator_twice (unit : Byte) {f : Oscillator → Oscillator} (hf : ∀ o, f (f o) = f o) (x : Voice) :
    onOscillator unit f (onOscillator unit f x) = onOscillator unit f x := by
  unfold onOscillator
  split <;> simp only [hf]

theorem onEnvelope_twice (unit : Byte) {f : Envelope → Envelope} (hf : ∀ e, f (f e) = f e) (x : Voice) :
    onEnvelope unit f (onEnvelope unit f x) = onEnvelope unit f x := by
  unfold onEnvelope
  split <;> simp only [hf]

/-- Two changes of one modulator are one change by both. -/
theorem onModulator_onModulator (unit : Byte) (f g : Modulator → Modulator) (x : Voice) :
    onModulator unit g (onModulator unit f x) = onModulator unit (g ∘ f) x := by
  rcases hunit : unit.toNat with _ | _ | _ | n <;> simp [onModulator, hunit]

@[simp] theorem onModulator_c1 (unit : Byte) (f : Modulator → Modulator) (x : Voice) : (onModulator unit f x).c1 = x.c1 := by
  rcases onModulator_cases unit f x with ⟨-, h⟩ | ⟨-, h⟩ | ⟨-, -, h⟩ <;> rw [h]

/-- A trigger reads nothing that a trigger writes, a note-off keeps the volume and the count it reads (R150). -/
theorem setVolume_twice (level : Byte) (e : Envelope) :
    (e.setVolume p level).setVolume p level = e.setVolume p level := by
  rcases Nat.eq_zero_or_pos level.toNat with h0 | hpos
  · cases hrpt : e.rpt with
    | false =>
      have hrpt' : e.noteOff.rpt = false := hrpt
      rw [setVolume_noteOff p e level h0 hrpt, setVolume_noteOff p _ level h0 hrpt']
      rfl
    | true => rw [setVolume_repeat p e level h0 hrpt, setVolume_repeat p e level h0 hrpt]
  · rw [setVolume_trigger p e level hpos, setVolume_trigger p _ level hpos]
    rfl

/-- Each write of a voice is idempotent. -/
theorem voiceWrite_twice {i : Instr} {voice : Byte} {f : Voice → Voice} (hw : voiceWrite p i = some (voice, f))
    (x : Voice) : f (f x) = f x := by
  cases i
  case nop | reset | peek | advance | pull | rdstat | rderr | master => cases hw
  all_goals obtain ⟨⟩ := hw
  case oscwave | oscduty => exact onOscillator_twice _ (fun _ => by rfl) x
  case envvol => exact onEnvelope_twice _ (setVolume_twice _) x
  case envatk | envdec | envsus | envrel | envgain | envrpt => exact onEnvelope_twice _ (fun _ => by rfl) x
  case modratio =>
    simp only [onModulator_c1, onModulator_onModulator]
    rfl
  case modamt => rw [onModulator_onModulator]; rfl
  case noteon =>
    simp only [Voice.strike, setVolume_twice]
    rfl
  case lfoinc | vfreq | vbal | vibdepth | ven => rfl

end

/-- An idempotent change of the named voices. -/
theorem onVoices_twice (voice : Byte) {f : Voice → Voice} (hf : ∀ x, f (f x) = f x) (s : State) :
    (s.onVoices voice f).onVoices voice f = s.onVoices voice f := by
  have hvoices : onTargets voice f (onTargets voice f s.voices) = onTargets voice f s.voices := by
    ext1 k hk
    simp only [onTargets_getElem]
    split
    · exact hf _
    · rfl
  exact congrArg (fun voices => { s with voices := voices }) hvoices

/-- A command that is rejected, or that answers nothing and is no tick, changes nothing more when repeated. -/
theorem exec_twice {i : Instr} {s t : State} (hi : responds i = false ∨ WellFormed i = false) (hadvance : i ≠ .advance)
    (h : exec i s = .next t) : exec i t = .next t := by
  have hgood : ∀ j, responds j = true → operandErr j = 0 → i ≠ j := by
    rintro j hj h0 rfl
    rw [hj, (operandErr_eq_zero i).mp h0] at hi
    exact hi.elim nofun nofun
  rcases exec_cases i s t h with ⟨_, hne, rfl, rfl⟩ | ⟨voice, f, hw, h0, rfl⟩ | ⟨rfl, rfl⟩ | ⟨rfl, rfl⟩ | ⟨rfl, -⟩ |
    ⟨rfl, -⟩ | ⟨rfl, -⟩ | ⟨voice, rfl, h0, -⟩ | ⟨rfl, -⟩ | ⟨data, rfl, rfl⟩
  · rw [exec_of_operandErr i _ hne, reject_reject]
  · rw [exec_voiceWrite i (s.onVoices voice f) voice f hw, h0, accepted_zero, onVoices_twice voice (voiceWrite_twice hw)]
  · rfl
  · rfl
  · exact absurd rfl (hgood .peek rfl rfl)
  · exact absurd rfl hadvance
  · exact absurd rfl (hgood .pull rfl rfl)
  · exact absurd rfl (hgood (.rdstat voice) rfl h0)
  · exact absurd rfl (hgood .rderr rfl rfl)
  · rfl

/-- A read in range only responds. -/
theorem exec_read {i : Instr} {s t : State} (hi : responds i = true) (hpull : i ≠ .pull) (hwf : WellFormed i = true)
    (h : exec i s = .next t) : t = { s with responses := t.responses } := by
  cases i
  case pull => exact absurd rfl hpull
  case peek | rderr => cases h; rfl
  case rdstat => rw [exec_rdstat s hwf] at h; cases h; rfl
  all_goals cases hi

/-- A word that is no command is rejected with cause bits that are the word's alone. -/
theorem execWord_of_no_command {w : CmdWord} (hw : ∀ i, decode w ≠ .instr i) :
    ∃ bits, ∀ s, execWord w s = .next (s.reject bits) := by
  cases hdecode : decode w with
  | instr i => exact absurd hdecode (hw i)
  | illegalOpcode op => exact ⟨errOp, fun s => by rw [execWord, hdecode]⟩
  | reservedField bits => exact ⟨bits, fun s => by rw [execWord, hdecode]⟩

/-- Settles O58: commands by `exec_twice`, reads by `exec_read`, and a word rejected twice sets the same bits. -/
theorem repeatedCommandsChangeNothingMore : Obligations.RepeatedCommandsChangeNothingMore := by
  refine ⟨fun i s t hi hadvance h => exec_twice hi hadvance h, fun i s t hi hpull hwf h => exec_read hi hpull hwf h, ?_⟩
  intro w s t hreset hw h
  obtain ⟨bits, hbits⟩ := execWord_of_no_command hw
  rw [step_offer s w hreset, hbits] at h
  cases h
  rw [step_offer (s.reject bits) w hreset, hbits, reject_reject]

/-! ### Commands in another order (R188) -/

theorem execAll_pair {i j : Instr} {s t : State} (h : exec i s = .next t) : execAll [i, j] s = exec j t :=
  (execAll_append ((execAll_single i s).trans h) [j]).trans (execAll_single j t)

theorem onVoices_comm (voice voice' : Byte) {f g : Voice → Voice} (hfg : ∀ x, f (g x) = g (f x)) (s : State) :
    (s.onVoices voice f).onVoices voice' g = (s.onVoices voice' g).onVoices voice f := by
  have hvoices : onTargets voice' g (onTargets voice f s.voices) = onTargets voice f (onTargets voice' g s.voices) := by
    ext1 k hk
    simp only [onTargets_getElem]
    by_cases hf : voice.toNat = k ∨ voice.toNat = 255 <;> by_cases hg : voice'.toNat = k ∨ voice'.toNat = 255 <;>
      simp only [hf, hg, if_true, if_false, hfg]
  exact congrArg (fun voices => { s with voices := voices }) hvoices

theorem reject_comm (s : State) (bits bits' : ErrBits) : (s.reject bits).reject bits' = (s.reject bits').reject bits := by
  simp only [State.reject, BitVec.or_assoc, BitVec.or_comm bits bits']

/-- Writes commute when they commute on one voice; a rejection writes `ERR` alone, so it commutes with everything. -/
theorem writeOrReject_comm (bits bits' : ErrBits) (voice voice' : Byte) {f g : Voice → Voice}
    (hfg : ∀ x, f (g x) = g (f x)) (s : State) :
    writeOrReject bits' voice' g (writeOrReject bits voice f s) =
      writeOrReject bits voice f (writeOrReject bits' voice' g s) := by
  unfold writeOrReject
  by_cases h : bits = 0 <;> by_cases h' : bits' = 0 <;> simp only [h, h', if_true, if_false]
  · exact onVoices_comm voice voice' hfg s
  · rfl
  · rfl
  · exact reject_comm s bits bits'

/-- Two commands that write voices commute when their writes of one voice do. -/
theorem execAll_comm {i j : Instr} {s : State} {voice voice' : Byte} {f g : Voice → Voice}
    (hi : voiceWrite s.params i = some (voice, f)) (hj : voiceWrite s.params j = some (voice', g))
    (hfg : ∀ x, f (g x) = g (f x)) : execAll [i, j] s = execAll [j, i] s := by
  rw [execAll_pair (exec_eq_writeOrReject hi), execAll_pair (exec_eq_writeOrReject hj),
    exec_eq_writeOrReject ((writeOrReject_params ..).symm ▸ hj), exec_eq_writeOrReject ((writeOrReject_params ..).symm ▸ hi),
    writeOrReject_comm _ _ _ _ hfg]

/-- Whichever comes first, the modulator has the new ratio and the increment that follows from it and the new carrier
increment; every other field is written by one of the two alone (R188). -/
theorem ratio_setFreq_comm (unit aux : Byte) (data inc : Word) (x : Voice) :
    onModulator unit (fun m => Modulator.refresh { m with ratio := clampByte data 255, ratioDiv := clampDivisor aux }
      (x.setFreq inc).c1.inc) (x.setFreq inc) =
    (onModulator unit (fun m => Modulator.refresh { m with ratio := clampByte data 255, ratioDiv := clampDivisor aux }
      x.c1.inc) x).setFreq inc := by
  unfold onModulator
  split <;> rfl

/-- A strike is a `set_freq` and writes to `EN` and the envelopes, which no modulator holds (R215). -/
theorem ratio_strike_comm (p : Params) (unit aux level : Byte) (data inc : Word) (x : Voice) :
    onModulator unit (fun m => Modulator.refresh { m with ratio := clampByte data 255, ratioDiv := clampDivisor aux }
      (x.strike p level inc).c1.inc) (x.strike p level inc) =
    (onModulator unit (fun m => Modulator.refresh { m with ratio := clampByte data 255, ratioDiv := clampDivisor aux }
      x.c1.inc) x).strike p level inc := by
  unfold onModulator
  split <;> rfl

/-- Settles O60, by the writes of one voice, which commute. -/
theorem ratioAndFrequencyCommute : Obligations.RatioAndFrequencyCommute := fun _ _ unit aux _ level data inc =>
  ⟨execAll_comm rfl rfl (ratio_setFreq_comm unit aux data inc), execAll_comm rfl rfl (ratio_strike_comm _ unit aux level data inc)⟩

end Sys2Proof.Proofs.Commands

/-! The signal path at its limits (R186, R201, R202), the sample as a response (R62, R93), silence (R33), and reset (R244,
R280). -/

namespace Sys2Proof.Proofs.Signals

set_option Elab.async false

open Sys2Proof.Machine Sys2Proof.Claims Sys2Proof.Proofs.Rules Sys2Proof.Proofs.Waves Sys2Proof.Proofs.Envelopes
  Sys2Proof.Proofs.Voices Sys2Proof.Proofs.System Sys2Proof.Proofs.Reset Sys2Proof.Proofs.Codec Sys2Proof.Proofs.Safety

/-! ### Modulation off (R186) -/

/-- A modulator whose amount or depth is 0 moves no phase. -/
theorem pmscale_eq_zero (w : Int) {d a : Nat} (h : a = 0 ∨ d = 0) : pmscale w d a = 0 := by
  have hproduct : w * (d : Int) * (a : Int) = 0 := by
    rcases h with rfl | rfl <;> simp
  rw [pmscale, hproduct]
  rfl

/-- Settles O43: an offset of 0 leaves every oscillator at its own phase. -/
theorem modulationOffIsPlain : Obligations.ModulationOffIsPlain := by
  refine fun p x => ⟨fun h => pmscale_eq_zero _ h, fun h => ?_⟩
  have hpmc : x.pmc p = 0 := pmscale_eq_zero _ h
  rw [Voice.output, Voice.mix, hpmc, sampleAt_zero, sampleAt_zero]

/-! ### Vibrato (R201, R202) -/

/-- The product of a sample, a depth and the cent constant, before the shift. -/
theorem abs_vibrato_product_le {lfo : Int} (hlfo : |lfo| ≤ 32767) (depth : Half) :
    |lfo * (depth.toNat : Int) * Config.centK| ≤ 32767 * 65535 * 2480870 := by
  have hdepth : depth.toNat ≤ 65535 := Nat.le_of_lt_succ depth.isLt
  calc |lfo * (depth.toNat : Int) * Config.centK|
    _ = |lfo| * (depth.toNat : Int) * 2480870 := by rw [abs_mul, abs_mul, Nat.abs_cast]; rfl
    _ ≤ 32767 * 65535 * 2480870 := by gcongr; exact_mod_cast hdepth

theorem vibratoRatio_range {lfo : Int} (hlfo : |lfo| ≤ 32767) (depth : Half) :
    -635100000 ≤ vibratoRatio lfo depth ∧ vibratoRatio lfo depth ≤ 635100000 := by
  obtain ⟨hlo, hhi⟩ := abs_le.mp (abs_vibrato_product_le hlfo depth)
  rw [vibratoRatio, asr]
  omega

theorem extra_of_vibdepth_zero {x : Voice} (h : x.vibdepth.toNat = 0) : x.extra = 0 := by
  rw [Voice.extra, vibratoRatio, h]
  simp [asr, vibratoExtra]

/-- Settles O47, by the range of the LFO's sample. -/
theorem vibratoIsBounded : Obligations.VibratoIsBounded :=
  ⟨fun sel p duty depth => vibratoRatio_range (abs_le.mpr (waveSample_range sel p duty)) depth,
    fun _ h => extra_of_vibdepth_zero h⟩

/-! ### The sample as a response (R93, R62) -/

theorem sampleOf_range (s : State) : -32768 ≤ sampleOf s ∧ sampleOf s ≤ 32767 := by
  rw [← mixOut_eq_sampleOf]
  exact sat16_range _

section
variable {z : Int} (hlo : -32768 ≤ z) (hhi : z ≤ 32767)
include hlo hhi

/-- The low half of a 16-bit sample's word is the sample. -/
theorem lowHalf_toInt : ((wordOfInt z).extractLsb' 0 16).toInt = z := by
  have hword := wordOfInt_toNat z
  have hlow := phaseField_toNat (wordOfInt z) 0 16
  rw [BitVec.toInt_eq_toNat_cond, hlow]
  split <;> omega

theorem sampleWord_toInt : (wordOfInt z).toInt = z := wordOfInt_toInt z (by omega) (by omega)

/-- The word is its low half, sign-extended. -/
theorem sampleWord_eq_signExtend : wordOfInt z = ((wordOfInt z).extractLsb' 0 16).signExtend 32 := by
  apply BitVec.eq_of_toInt_eq
  rw [BitVec.toInt_signExtend_of_le (by decide), lowHalf_toInt hlo hhi, sampleWord_toInt hlo hhi]

end

/-- The two bytes of a sample, the high one first, are the low half of the response. -/
theorem sampleBytes_append (r : Word) : (r.extractLsb' 8 8 ++ r.extractLsb' 0 8 : BitVec 16) = r.extractLsb' 0 16 := by
  apply BitVec.eq_of_toNat_eq
  rw [append_toNat, byte_toNat, byte_toNat, phaseField_toNat]
  omega

/-- `PEEK` and `PULL` append the sample's word to the responses. -/
theorem exec_sample_responses {i : Instr} {s t : State} (hi : i = .peek ∨ i = .pull) (h : exec i s = .next t) :
    t.responses = s.responses ++ [wordOfInt (sampleOf s)] := by
  rw [← mixOut_eq_sampleOf]
  rcases hi with rfl | rfl <;> cases h <;> rfl

/-- Settles O50: the sample has 16 bits, so its word's low half holds it. -/
theorem sampleResponsesAreSignExtended : Obligations.SampleResponsesAreSignExtended := by
  intro i s t hi h
  obtain ⟨hlo, hhi⟩ := sampleOf_range s
  refine ⟨wordOfInt (sampleOf s), exec_sample_responses hi h, sampleWord_eq_signExtend hlo hhi, sampleWord_toInt hlo hhi,
    _, _, rfl, ?_⟩
  rw [sampleBytes_append, lowHalf_toInt hlo hhi]

/-! ### Silence (R33) -/

theorem resting_reset : Resting Voice.reset := ⟨rfl, rfl, rfl⟩

/-- A tick keeps a voice resting: its amplitude envelope waits at volume 0, so its sample is 0. -/
theorem resting_advance (p : Params) {x : Voice} (hx : Resting x) : Resting (x.advance p) := by
  obtain ⟨hst, hvol, -⟩ := hx
  have hamp : (x.advance p).amp = x.amp := by rw [Voice.advance_amp, adjust_waiting p _ hst]
  have hout : (x.advance p).output p = 0 := output_of_vol_zero p (BitVec.eq_of_toNat_eq (hamp ▸ hvol))
  refine ⟨hamp ▸ hst, hamp ▸ hvol, ?_⟩
  rw [advance_vbuf_eq_output, hout]
  rfl

/-- Resting voices are silent, enabled or not. -/
theorem sampleOf_of_resting {s : State} (h : ∀ k (hk : k < 128), Resting s.voices[k]) : sampleOf s = 0 := by
  have hsum : ∀ k : Fin 128, (if (s.voices[k.val]).en then (s.voices[k.val]).vbuf.toInt else 0) = 0 := fun k => by
    obtain ⟨-, -, hbuf⟩ := h k.val k.isLt
    rw [show (s.voices[k.val]).vbuf = 0 from BitVec.eq_of_toNat_eq hbuf]
    exact ite_self _
  simp [sampleOf, hsum]

theorem resting_tick {s : State} (h : ∀ k (hk : k < 128), Resting s.voices[k]) (k : Nat) (hk : k < 128) :
    Resting s.tick.voices[k] := by
  rw [tick_voices_getElem s k hk]
  exact resting_advance _ (h k hk)

/-- Settles O11: rest is kept by a tick, and its sample is 0. -/
theorem silentUntilStruck : Obligations.SilentUntilStruck := by
  refine ⟨fun k hk => by rw [reset_voices_getElem k hk]; exact resting_reset, fun s hs => ?_⟩
  have hsample := sampleOf_of_resting hs
  refine ⟨hsample, ⟨s.tick, rfl, resting_tick hs⟩, _, exec_pull s, ?_, resting_tick hs⟩
  rw [State.respond_responses, State.tick_responses, sampleWord_eq, hsample]
  rfl

/-! ### Reset (R244, R280) -/

/-- While the input is asserted, and when it is released after that, every element is reset (R280). -/
theorem step_resetLine_resets {s : State} {level : Bool} {rest : List PortEvent} (hinputs : s.inputs = .resetLine level :: rest)
    (h : level = true ∨ s.resetLine = true) :
    step s = .next { s.resetElements with inputs := rest, resetLine := level } := by
  rw [step_resetLine s level rest hinputs, State.driveReset, if_pos h]
  rfl

/-- Settles O10: the elements are reset with the input's levels, and a word meanwhile is lost. -/
theorem resetInputHoldsTheCore : Obligations.ResetInputHoldsTheCore :=
  ⟨fun s _ hinputs => ⟨_, step_resetLine_resets hinputs (.inl rfl), elementsAtReset_resetElements s, rfl, rfl, rfl, rfl⟩,
    fun s w rest hreset hinputs => step_command_in_reset s w rest hinputs hreset,
    fun s _ hreset hinputs =>
      ⟨_, step_resetLine_resets hinputs (.inr hreset), elementsAtReset_resetElements s, rfl, rfl, rfl, rfl⟩⟩

/-- Settles O13: the command and the input both write what `State.resetElements` writes. -/
theorem resetCommandResetsEveryElement : Obligations.ResetCommandResetsEveryElement := by
  refine ⟨commandRule_of_effect (by decide) rfl (fun _ _ _ _ => rfl) fun _ _ _ _ s _ =>
    ⟨_, exec_reset s, elementsAtReset_resetElements s, rfl⟩, fun s rest hinputs => ?_⟩
  exact ⟨_, _, exec_reset s, step_resetLine_resets hinputs (.inl rfl), rfl, rfl, rfl⟩

end Sys2Proof.Proofs.Signals

/-! The commands that write voices, each by its rule whole (R126 to R128, R162 to R168, R188, R189, R212 to R215): what
`voiceWrite` says of each, in the terms of the statements. -/

namespace Sys2Proof.Proofs.VoiceCommands

set_option Elab.async false

open Sys2Proof.Machine Sys2Proof.Claims Sys2Proof.Proofs.Rules Sys2Proof.Proofs.Waves

/-! ### A unit in its range (R84) -/

theorem onOscillator_eq_with {unit : Byte} (hunit : oscUnitOk unit = true) (f : Oscillator → Oscillator) :
    onOscillator unit f = withOscillator unit f := by
  have hle : unit.toNat ≤ 4 := of_decide_eq_true hunit
  funext x
  rcases onOscillator_cases unit f x with ⟨hu, h⟩ | ⟨hu, h⟩ | ⟨hu, h⟩ | ⟨hu, h⟩ | ⟨hu, h⟩ | ⟨hu, -⟩
  case inr.inr.inr.inr.inr => omega
  all_goals simp [h, withOscillator, hu]

theorem onEnvelope_eq_with {unit : Byte} (hunit : envUnitOk unit = true) (f : Envelope → Envelope) :
    onEnvelope unit f = withEnvelope unit f := by
  have hle : unit.toNat ≤ 2 := of_decide_eq_true hunit
  funext x
  rcases onEnvelope_cases unit f x with ⟨hu, h⟩ | ⟨hu, h⟩ | ⟨hu, h⟩ | ⟨hu, -⟩
  case inr.inr.inr => omega
  all_goals simp [h, withEnvelope, hu]

theorem onModulator_eq_with {unit : Byte} (hunit : modUnitOk unit = true) (f : Modulator → Modulator) :
    onModulator unit f = withModulator unit f := by
  have hle : unit.toNat = 1 ∨ unit.toNat = 2 := of_decide_eq_true hunit
  funext x
  rcases onModulator_cases unit f x with ⟨hu, h⟩ | ⟨hu, h⟩ | ⟨hu1, hu2, -⟩
  case inr.inr => omega
  all_goals simp [h, withModulator, hu]

/-! ### The clamps (R88) -/

theorem clampWaveform_eq (d : Word) : clampWaveform d = waveformOf d := by
  unfold clampWaveform waveformOf
  rcases hd : d.toNat with _ | _ | _ | n
  · rfl
  · rfl
  · rfl
  · have hmin : min (n + 1 + 1 + 1) 3 = 3 := by omega
    rw [hmin, if_neg (by omega), if_neg (by omega), if_neg (by omega)]
    rfl

theorem flagOf_eq (d : Word) : flagOf d = if d.toNat = 0 then false else true := by
  unfold flagOf
  split <;> simp_all

/-! ### The rules by the kind of unit -/

section
variable {op : Nat} {command : Byte → Byte → Word → Instr}

/-- The rule of an oscillator command: `f` is what it does to the oscillator it names. -/
theorem commandRule_of_oscillatorWrite (f : Word → Oscillator → Oscillator) (hop : op < 256)
    (hsh : shapeOf op = some (shapeVUD oscUnits))
    (hi : ∀ voice unit aux data, instrOf (BitVec.ofNat 8 op) voice unit aux data = some (command voice unit data))
    (hwf : ∀ voice unit data, WellFormed (command voice unit data) = (voiceOk voice && oscUnitOk unit))
    (hf : ∀ p voice unit data, voiceWrite p (command voice unit data) = some (voice, onOscillator unit (f data))) :
    CommandRule op (shapeVUD oscUnits) (fun voice unit _ data => command voice unit data) (fun voice unit _ data =>
      VoicesChanged voice (withOscillator unit (f data))) := by
  refine commandRule_of_voiceWrite (fun _ unit _ data => withOscillator unit (f data)) hop hsh hi
    fun p voice unit _ data hok => ?_
  rw [hwf, Bool.and_eq_true] at hok
  rw [hf, onOscillator_eq_with hok.2]

/-- The rule of an envelope command: `f` is what it does to the envelope it names. -/
theorem commandRule_of_envelopeWrite (f : Params → Word → Envelope → Envelope) (hop : op < 256)
    (hsh : shapeOf op = some (shapeVUD envUnits))
    (hi : ∀ voice unit aux data, instrOf (BitVec.ofNat 8 op) voice unit aux data = some (command voice unit data))
    (hwf : ∀ voice unit data, WellFormed (command voice unit data) = (voiceOk voice && envUnitOk unit))
    (hf : ∀ p voice unit data, voiceWrite p (command voice unit data) = some (voice, onEnvelope unit (f p data))) :
    CommandRule op (shapeVUD envUnits) (fun voice unit _ data => command voice unit data) (fun voice unit _ data s =>
      VoicesChanged voice (withEnvelope unit (f s.params data)) s) := by
  refine commandRule_of_voiceWrite (fun p unit _ data => withEnvelope unit (f p data)) hop hsh hi
    fun p voice unit _ data hok => ?_
  rw [hwf, Bool.and_eq_true] at hok
  rw [hf, onEnvelope_eq_with hok.2]

end

/-! ### Oscillator commands (R126 to R128) -/

/-- Settles O20: both commands write one register of an oscillator, through its clamp. -/
theorem oscillatorParameterWrites : Obligations.OscillatorParameterWrites := by
  refine ⟨commandRule_of_oscillatorWrite (fun data o => { o with wave := waveformOf data }) (by decide) rfl
      (fun _ _ _ _ => rfl) (fun _ _ _ => rfl) fun _ _ _ data => ?_,
    commandRule_of_oscillatorWrite (fun data o => { o with duty := BitVec.ofNat 8 (min data.toNat 255) }) (by decide) rfl
      (fun _ _ _ _ => rfl) (fun _ _ _ => rfl) fun _ _ _ _ => rfl⟩
  rw [← clampWaveform_eq]
  rfl

/-- Settles O21: `LFOINC` writes voices, each in one register of its LFO. -/
theorem lfoincWritesTheIncrement : Obligations.LfoincWritesTheIncrement :=
  commandRule_of_voiceWrite (fun _ _ _ data x => { x with lfo := { x.lfo with inc := data } }) (by decide) rfl
    (fun _ _ _ _ => rfl) fun _ _ _ _ _ _ => rfl

/-! ### Envelope commands (R162 to R168) -/

/-- Settles O23: the level is the clamped operand. -/
theorem envvolSetsTheVolume : Obligations.EnvvolSetsTheVolume :=
  commandRule_of_envelopeWrite (fun p data e => e.setVolume p (BitVec.ofNat 8 (min data.toNat 255))) (by decide) rfl
    (fun _ _ _ _ => rfl) (fun _ _ _ => rfl) fun _ _ _ _ => rfl

/-- Settles O24: each of the six commands writes one register of an envelope, through its clamp. -/
theorem envelopeParameterWrites : Obligations.EnvelopeParameterWrites := by
  refine ⟨?attack, ?decay, ?sustain, ?release, ?gain, ?mode⟩
  case attack =>
    exact commandRule_of_envelopeWrite (fun _ data e => { e with rlA := data }) (by decide) rfl
      (fun _ _ _ _ => rfl) (fun _ _ _ => rfl) fun _ _ _ _ => rfl
  case decay =>
    exact commandRule_of_envelopeWrite (fun _ data e => { e with rlD := data }) (by decide) rfl
      (fun _ _ _ _ => rfl) (fun _ _ _ => rfl) fun _ _ _ _ => rfl
  case sustain =>
    exact commandRule_of_envelopeWrite (fun _ data e => { e with sus := BitVec.ofNat 8 (min data.toNat 255) }) (by decide) rfl
      (fun _ _ _ _ => rfl) (fun _ _ _ => rfl) fun _ _ _ _ => rfl
  case release =>
    exact commandRule_of_envelopeWrite (fun _ data e => { e with rlR := data }) (by decide) rfl
      (fun _ _ _ _ => rfl) (fun _ _ _ => rfl) fun _ _ _ _ => rfl
  case gain =>
    exact commandRule_of_envelopeWrite (fun _ data e => { e with gain := BitVec.ofNat 8 (min data.toNat 128) }) (by decide)
      rfl (fun _ _ _ _ => rfl) (fun _ _ _ => rfl) fun _ _ _ _ => rfl
  case mode =>
    refine commandRule_of_envelopeWrite (fun _ data e => { e with rpt := if data.toNat = 0 then false else true })
      (by decide) rfl (fun _ _ _ _ => rfl) (fun _ _ _ => rfl) fun _ _ _ data => ?_
    rw [← flagOf_eq]
    rfl

/-! ### Modulator commands (R188, R189) -/

/-- Settles O25: the modulator is refreshed with its new ratio from carrier 1's increment. -/
theorem modratioScalesTheIncrement : Obligations.ModratioScalesTheIncrement := by
  refine commandRule_of_voiceWrite (fun _ unit aux data x => withModulator unit (fun m =>
      { m with
        ratio := BitVec.ofNat 8 (min data.toNat 255)
        ratioDiv := BitVec.ofNat 8 (max aux.toNat 1)
        osc := { m.osc with
          inc := modulatorInc (BitVec.ofNat 8 (min data.toNat 255)) (BitVec.ofNat 8 (max aux.toNat 1)) x.c1.inc } }) x)
    (by decide) rfl (fun _ _ _ _ => rfl) fun p voice unit aux data hok => ?_
  have hunit : modUnitOk unit = true := (Bool.and_eq_true_iff.mp hok).2
  simp only [voiceWrite, onModulator_eq_with hunit, Modulator.refresh, scaledInc_eq_modulatorInc]
  rfl

/-- Settles O26: `MODAMT` writes two registers of a modulator, through their clamps. -/
theorem modamtWritesTheAmount : Obligations.ModamtWritesTheAmount := by
  refine commandRule_of_voiceWrite (fun _ unit aux data => withModulator unit fun m =>
      { m with amount := BitVec.ofNat 8 (min data.toNat 255), amountDiv := BitVec.ofNat 8 (max aux.toNat 1) })
    (by decide) rfl (fun _ _ _ _ => rfl) fun p voice unit aux data hok => ?_
  have hunit : modUnitOk unit = true := (Bool.and_eq_true_iff.mp hok).2
  rw [← onModulator_eq_with hunit]
  rfl

/-! ### Voice commands (R212 to R215) -/

/-- Settles O27: each of the three commands writes one register of a voice, through its clamp. -/
theorem voiceRegisterWrites : Obligations.VoiceRegisterWrites := by
  refine ⟨?balance, ?vibdepth, ?enable⟩
  case balance =>
    exact commandRule_of_voiceWrite (fun _ _ _ data x => { x with bal := BitVec.ofNat 8 (min data.toNat 128) }) (by decide)
      rfl (fun _ _ _ _ => rfl) fun _ _ _ _ _ _ => rfl
  case vibdepth =>
    exact commandRule_of_voiceWrite (fun _ _ _ data x => { x with vibdepth := BitVec.ofNat 16 (min data.toNat 65535) })
      (by decide) rfl (fun _ _ _ _ => rfl) fun _ _ _ _ _ _ => rfl
  case enable =>
    refine commandRule_of_voiceWrite (fun _ _ _ data x => { x with en := if data.toNat = 0 then false else true })
      (by decide) rfl (fun _ _ _ _ => rfl) fun _ _ _ _ data _ => ?_
    rw [← flagOf_eq]
    rfl

/-- A strike is the tuned voice, enabled, with its envelopes triggered (R215). -/
theorem strike_eq_tuned (p : Params) (x : Voice) (level : Byte) (inc : Word) :
    x.strike p level inc =
      { tuned inc x with
        en := true
        amp := x.amp.setVolume p level
        e1 := x.e1.setVolume p 255
        e2 := x.e2.setVolume p 255 } := by
  rw [Voice.strike, setFreq_eq_tuned]

/-- Settles O28: `NOTEON` strikes the voices it names. -/
theorem noteonStrikesTheVoice : Obligations.NoteonStrikesTheVoice :=
  commandRule_of_voiceWrite (fun p _ aux data x =>
      { tuned data x with
        en := true
        amp := x.amp.setVolume p aux
        e1 := x.e1.setVolume p 255
        e2 := x.e2.setVolume p 255 })
    (by decide) rfl (fun _ _ _ _ => rfl) fun p voice _ aux data _ =>
      congrArg (fun f => some (voice, f)) (funext fun x => strike_eq_tuned p x aux data)

end Sys2Proof.Proofs.VoiceCommands
